-- ==== Sys2Proof/Word.lean ====
section
/-! DEFINITION. The two fixed-width words of the block: 8-bit bytes and plane cells (spec/20_memory.md R40,
spec/10_state.md R25) and 32-bit register and command words (spec/10_state.md section 2, spec/30_encoding.md R58). -/

namespace Sys2Proof

/-- A byte of the memory space or a cell of the plane (R25, R40). -/
abbrev Byte := BitVec 8

/-- A register value or a command word; bit 0 is the least significant (R38, R58). -/
abbrev Word := BitVec 32

/-- The number of bytes of the memory space, `2^ADDR_W` with `ADDR_W = 32` (R35, R36). -/
def memorySpace : Nat := 4294967296

end Sys2Proof
end

