-- ==== Sys2Proof/Syntax.lean ====
section
/-! DEFINITION. The syntax of what the host writes to the block: the commands (one constructor per row of
spec/opcode_table.json), the fields of the configuration word (spec/30_encoding.md section 1.2) and the names of the
sixteen slots of the register window (spec/10_state.md section 2). -/

namespace Sys2Proof

/-- The rows of spec/opcode_table.json, one constructor each. The first seven are the commands of the opcode map
(R67); the nine after them are the variants that the latched configuration selects among (R68), with the same
command words; `illegal` is every other 32-bit word (R69, R75). -/
inductive Instr where
  /-- NOP, word 0 (R73). -/
  | nop
  /-- CONVERT, word 1 (R112). -/
  | convert
  /-- REDUCE, word 2 (R84). -/
  | reduce
  /-- ADJUST, word 3 (R92). -/
  | adjust
  /-- DITHER, word 4 (R93). -/
  | dither
  /-- QUANTIZE, word 5 (R101). -/
  | quantize
  /-- PACK, word 6 (R105). -/
  | pack
  /-- DITHER.none: word 4 where `L.DITHER = 0` (R94). -/
  | ditherNone
  /-- DITHER.floyd: word 4 where `L.DITHER = 1` (R95). -/
  | ditherFloyd
  /-- DITHER.o8x8: word 4 where `L.DITHER = 2` (R97). -/
  | ditherOrdered
  /-- QUANTIZE.1bpp: word 5 where `L.OUT_BPP = 1` (R102). -/
  | quantize1
  /-- QUANTIZE.4bpp: word 5 where `L.OUT_BPP = 4` (R103). -/
  | quantize4
  /-- PACK.4bpp.h: word 6 where `L.OUT_BPP = 4` and `L.SCAN = 0` (R107). -/
  | pack4h
  /-- PACK.4bpp.v: word 6 where `L.OUT_BPP = 4` and `L.SCAN = 1` (R108). -/
  | pack4v
  /-- PACK.1bpp.h: word 6 where `L.OUT_BPP = 1` and `L.SCAN = 0` (R109). -/
  | pack1h
  /-- PACK.1bpp.v: word 6 where `L.OUT_BPP = 1` and `L.SCAN = 1` (R110). -/
  | pack1v
  /-- ILLEGAL: any word that no row above matches (R75). -/
  | illegal (w : Word)
  deriving DecidableEq, Repr

/-- `OUT_BPP`, the output bit depth: 1 or 4 (R59). -/
inductive OutBpp where
  | one
  | four
  deriving DecidableEq, Repr

/-- `SCAN`: 0 horizontal (row-major), 1 vertical (column-major) (R59). -/
inductive Scan where
  | horizontal
  | vertical
  deriving DecidableEq, Repr

/-- `ORDER`: 0 the source's "little endian" (first pixel in the high bits of a 4-bpp or horizontal byte), 1 its
"big endian" (R59). -/
inductive PixelOrder where
  | little
  | big
  deriving DecidableEq, Repr

/-- `DITHER`: 0 none, 1 Floyd-Steinberg, 2 ordered 8×8 (R59). -/
inductive DitherMethod where
  | none
  | floyd
  | ordered
  deriving DecidableEq, Repr

/-- `SRC_BPP`, the source bit depth: 24 or 32 (R59). -/
inductive SrcBpp where
  | b24
  | b32
  deriving DecidableEq, Repr

/-- The fields of a legal configuration word (R59, R60). -/
structure ConfigFields where
  outBpp : OutBpp
  scan : Scan
  order : PixelOrder
  dither : DitherMethod
  invert : Bool
  srcBpp : SrcBpp
  deriving DecidableEq, Repr

/-- The registers of the window (spec/10_state.md section 2). `reserved` stands for the four slots 0x30, 0x34, 0x38
and 0x3C, which behave alike (R22). -/
inductive Reg where
  | cmd
  | status
  | inten
  | config
  | width
  | height
  | brightness
  | contrast
  | srcBase
  | dstBase
  | rowSize
  | outLen
  | reserved
  deriving DecidableEq, Repr

end Sys2Proof
end

