-- ==== Sys2Proof/WellFormed.lean ====
section
/-! DEFINITION. Which instructions are well formed. A command word carries no operand (spec/30_encoding.md R58), so the
one check is that ILLEGAL holds a word that is none of the seven commands (R67, R75). -/

namespace Sys2Proof

/-- The condition of the ILLEGAL row: `w[31:4] ≠ 0`, or `w[3:0]` is one of 0x7..0xF (R75). -/
def illegalWord (w : Word) : Bool :=
  w.extractLsb' 4 28 != 0#28 || 7 ≤ (w.extractLsb' 0 4).toNat

/-- An instruction is well formed when its encoding stands for it: the ILLEGAL row holds an illegal word, and the
other rows have no operand to check. -/
def Instr.wellFormed : Instr → Bool
  | .illegal w => illegalWord w
  | .nop => true
  | .convert => true
  | .reduce => true
  | .adjust => true
  | .dither => true
  | .quantize => true
  | .pack => true
  | .ditherNone => true
  | .ditherFloyd => true
  | .ditherOrdered => true
  | .quantize1 => true
  | .quantize4 => true
  | .pack4h => true
  | .pack4v => true
  | .pack1h => true
  | .pack1v => true

end Sys2Proof
end

