-- ==== Sys2Proof/Decode.lean ====
section
/-! DEFINITION. The decoder of command words (spec/30_encoding.md R58, R67; spec/40_control.md R75) and of the
configuration word (R59, R60), and after each the encoder. -/

namespace Sys2Proof

/-- `Decode(w)` (R75): exact match of all 32 bits against the opcode map (R67); every other word is ILLEGAL. The
words of DITHER, QUANTIZE and PACK decode to the command itself, because the variant is chosen by the latched
configuration and not by the word (R68). -/
def decode (w : Word) : Instr :=
  if w.extractLsb' 4 28 ≠ 0#28 then .illegal w
  else match (w.extractLsb' 0 4).toNat with
    | 0 => .nop
    | 1 => .convert
    | 2 => .reduce
    | 3 => .adjust
    | 4 => .dither
    | 5 => .quantize
    | 6 => .pack
    | _ => .illegal w

/-- The word whose byte at the lowest address is `b0`: little-endian, not switchable (R38). -/
def wordOfBytes (b0 b1 b2 b3 : Byte) : Word := b3 ++ b2 ++ b1 ++ b0

/-- Why bytes are no command word. -/
inductive DecodeError where
  /-- Fewer than the four bytes of a command word: there is no other length (spec/30_encoding.md section 1). -/
  | truncated (have_ : Nat)
  deriving DecidableEq, Repr

/-- The command that four bytes of a 32-bit write to `CMD` carry, and the bytes after them. -/
def decodeBytes : List Byte → Except DecodeError (Instr × List Byte)
  | b0 :: b1 :: b2 :: b3 :: rest => .ok (decode (wordOfBytes b0 b1 b2 b3), rest)
  | bs => .error (.truncated bs.length)

/-- The command word of an instruction (the opcode map of R67; a variant has its command's word, R68). -/
def encode : Instr → Word
  | .nop => 0x00000000#32
  | .convert => 0x00000001#32
  | .reduce => 0x00000002#32
  | .adjust => 0x00000003#32
  | .dither => 0x00000004#32
  | .quantize => 0x00000005#32
  | .pack => 0x00000006#32
  | .ditherNone => 0x00000004#32
  | .ditherFloyd => 0x00000004#32
  | .ditherOrdered => 0x00000004#32
  | .quantize1 => 0x00000005#32
  | .quantize4 => 0x00000005#32
  | .pack4h => 0x00000006#32
  | .pack4v => 0x00000006#32
  | .pack1h => 0x00000006#32
  | .pack1v => 0x00000006#32
  | .illegal w => w

/-- The bytes of a word as the host bus carries them, lowest address first (R38). -/
def bytesOfWord (w : Word) : List Byte :=
  [w.extractLsb' 0 8, w.extractLsb' 8 8, w.extractLsb' 16 8, w.extractLsb' 24 8]

/-- The bytes of an instruction's command word, lowest address first. -/
def encodeBytes (i : Instr) : List Byte := bytesOfWord (encode i)

/-- The row that a row's word decodes to: a variant's command, and every other row itself (R68). -/
def Instr.core : Instr → Instr
  | .ditherNone => .dither
  | .ditherFloyd => .dither
  | .ditherOrdered => .dither
  | .quantize1 => .quantize
  | .quantize4 => .quantize
  | .pack4h => .pack
  | .pack4v => .pack
  | .pack1h => .pack
  | .pack1v => .pack
  | .nop => .nop
  | .convert => .convert
  | .reduce => .reduce
  | .adjust => .adjust
  | .dither => .dither
  | .quantize => .quantize
  | .pack => .pack
  | .illegal w => .illegal w

/-- What the decoder reads from an instruction whose bits, numbered as spec/opcode_table.json numbers them, are `w`:
its four bytes, the first at the lowest address, with zeros above the `nbits` the table gives. -/
def decodeTableWord (nbits w : Nat) : Option Instr :=
  match decodeBytes (bytesOfWord (BitVec.ofNat 32 (w % 2 ^ nbits))) with
  | .ok (i, _) => some i
  | .error _ => none

/-! ## The configuration word -/

/-- `OUT_BPP = c[3:0]`: the literal number 1 or 4 (R59). -/
def outBppField (c : Word) : Option OutBpp :=
  match (c.extractLsb' 0 4).toNat with
  | 1 => some .one
  | 4 => some .four
  | _ => none

/-- `SCAN = c[4]` (R59). -/
def scanField (c : Word) : Scan := if c.getLsbD 4 then .vertical else .horizontal

/-- `ORDER = c[5]` (R59). -/
def orderField (c : Word) : PixelOrder := if c.getLsbD 5 then .big else .little

/-- `DITHER = c[7:6]`; 3 is illegal (R59). -/
def ditherField (c : Word) : Option DitherMethod :=
  match (c.extractLsb' 6 2).toNat with
  | 0 => some .none
  | 1 => some .floyd
  | 2 => some .ordered
  | _ => none

/-- `INVERT = c[8]` (R59). -/
def invertField (c : Word) : Bool := c.getLsbD 8

/-- `SRC_BPP = c[23:16]`: the literal number 24 or 32 (R59). -/
def srcBppField (c : Word) : Option SrcBpp :=
  match (c.extractLsb' 16 8).toNat with
  | 24 => some .b24
  | 32 => some .b32
  | _ => none

/-- The reserved bits `c[15:9]` and `c[31:24]` are 0 (R60). -/
def configReservedZero (c : Word) : Bool :=
  c.extractLsb' 9 7 == 0#7 && c.extractLsb' 24 8 == 0#8

/-- `Legal(c)` and the fields of a legal configuration word (R59, R60); `none` for an illegal word. -/
def decodeConfig (c : Word) : Option ConfigFields :=
  match outBppField c, ditherField c, srcBppField c with
  | some ob, some d, some sb =>
    if configReservedZero c then
      some { outBpp := ob, scan := scanField c, order := orderField c, dither := d, invert := invertField c,
             srcBpp := sb }
    else none
  | _, _, _ => none

/-- The number in `OUT_BPP` (R59). -/
def OutBpp.value : OutBpp → Nat
  | .one => 1
  | .four => 4

/-- The bit in `SCAN` (R59). -/
def Scan.value : Scan → Nat
  | .horizontal => 0
  | .vertical => 1

/-- The bit in `ORDER` (R59). -/
def PixelOrder.value : PixelOrder → Nat
  | .little => 0
  | .big => 1

/-- The number in `DITHER` (R59). -/
def DitherMethod.value : DitherMethod → Nat
  | .none => 0
  | .floyd => 1
  | .ordered => 2

/-- The number in `SRC_BPP` (R59). -/
def SrcBpp.value : SrcBpp → Nat
  | .b24 => 24
  | .b32 => 32

/-- The configuration word of the fields, the `CFG(…)` of R71:
`bpp | scan << 4 | order << 5 | dither << 6 | invert << 8 | src << 16`. -/
def encodeConfig (f : ConfigFields) : Word :=
  BitVec.ofNat 32 (f.outBpp.value + f.scan.value * 2 ^ 4 + f.order.value * 2 ^ 5 + f.dither.value * 2 ^ 6
    + f.invert.toNat * 2 ^ 8 + f.srcBpp.value * 2 ^ 16)

end Sys2Proof
end

