-- ==== Sys2Proof/Config.lean ====
section
/-! DEFINITION. What the platform fixes and what the spec leaves free. The OPEN parameters of spec/00_scope.md section 4
(`REG_BASE`, `PLANE_CAPACITY`, `BusOK`, `BAYER`) are plain data in `Platform`, which the machine's state carries and no
step changes, so that a statement about every state is a statement about every platform. The values that
spec/93_implementation_defined.md calls `any value` are the two constants without a body. -/

namespace Sys2Proof

/-- The two kinds of access of the memory port (`BusOK(kind, addr)`, spec/00_scope.md section 4). -/
inductive BusKind where
  | read
  | write
  deriving DecidableEq, Repr

/-- A range of memory addresses, both ends included, whose accesses of one kind end in a bus error. Every predicate
`BusOK` over the finite memory space is a finite list of such ranges. -/
structure BusFaultRange where
  kind : BusKind
  first : Nat
  last : Nat
  deriving DecidableEq, Repr

/-- The OPEN parameters (spec/00_scope.md section 4): fixed for a machine, any value a platform may give. -/
structure Platform where
  /-- `REG_BASE`, the address of the register window on the host's bus, a multiple of 64. -/
  regBase : Nat
  /-- `PLANE_CAPACITY`, the number of cells of the plane buffer (R4). -/
  planeCapacity : Nat
  /-- `BusOK`, as the list of the ranges where it is false. -/
  busFaults : List BusFaultRange
  /-- `BAYER`, row by row: entry `8 × r + c` is `BAYER[r][c]` (R5, R26). -/
  bayer : Vector (BitVec 6) 64
  deriving DecidableEq, Repr

/-- What the parameters' constraints ask of a platform: `REG_BASE` aligned to 64 bytes and `PLANE_CAPACITY` between 2
and `2^28` (R4). The type of `bayer` already keeps each entry in `0..63` (R5). -/
def Platform.wf (p : Platform) : Bool :=
  p.regBase % 64 == 0 && 2 ≤ p.planeCapacity && p.planeCapacity ≤ 268435456

/-- The default of `BAYER`, the standard recursive matrix (R98; PRESUMED, unsafe, notes/assumptions/17.md). -/
def defaultBayer : Vector (BitVec 6) 64 :=
  #v[ 0, 32,  8, 40,  2, 34, 10, 42,
     48, 16, 56, 24, 50, 18, 58, 26,
     12, 44,  4, 36, 14, 46,  6, 38,
     60, 28, 52, 20, 62, 30, 54, 22,
      3, 35, 11, 43,  1, 33,  9, 41,
     51, 19, 59, 27, 49, 17, 57, 25,
     15, 47,  7, 39, 13, 45,  5, 37,
     63, 31, 55, 23, 61, 29, 53, 21]

/-- The platform that `State.reset` carries: the one spec/92_eei_decisions.md D44 gives for the test vectors
(`PLANE_CAPACITY = 2^20`, `BusOK` true everywhere, the default `BAYER`), with a `REG_BASE` of the model's.
DESIGN CHOICE, unsafe (notes/assumptions/3.md): a claim about `State.reset`'s platform is about this platform only. -/
def defaultPlatform : Platform where
  regBase := 4026531840
  planeCapacity := 1048576
  busFaults := []
  bayer := defaultBayer

/-- A byte the spec calls unspecified, `any value` in `0..255` (spec/93_implementation_defined.md section 2). Each use
applies it to a value of the state's counter that no other use has (DESIGN CHOICE, safe, notes/assumptions/8.md). -/
opaque Config.freeByte : Nat → Byte

/-- The choice where the spec allows either of two values (R54: the host's value or the block's; DESIGN CHOICE, safe,
notes/assumptions/8.md). -/
opaque Config.freeBit : Nat → Bool

end Sys2Proof
end

