-- ==== Sys2Proof/Machine/State.lean ====
section
/-! DEFINITION. The state of the block (spec/10_state.md), the memory on its memory port, what the host is about to do
and the reasons a step can stop. All plain data. INVENTORY.md lists every field with the rule that names it. -/

namespace Sys2Proof.Machine

/-- `STATUS.PK`, what the plane buffer holds: 0 EMPTY, 1 LUMA8, 2 LEVEL1, 3 LEVEL4 (R15). -/
inductive PlaneKind where
  | empty
  | luma8
  | level1
  | level4
  deriving DecidableEq, Repr

/-- The errors a command can end with, in the order of their codes (R118). -/
inductive CmdError where
  | illegalCmd
  | badConfig
  | badDim
  | sequence
  | busRead
  | busWrite
  deriving DecidableEq, Repr

/-- The fields of `STATUS` (R9 to R15); the bits not listed there read 0 and hold nothing. -/
structure Status where
  busy : Bool
  done : Bool
  err : Bool
  ovr : Bool
  errcode : BitVec 4
  pk : PlaneKind
  deriving DecidableEq, Repr

/-- The seven conversion registers of the window (R17); the snapshot `S` has the same seven fields (R28). -/
structure ConvRegs where
  config : Word
  width : Word
  height : Word
  brightness : Word
  contrast : Word
  srcBase : Word
  dstBase : Word
  deriving DecidableEq, Repr

/-- The latched configuration `L` (R29). -/
structure Latch where
  outBpp : OutBpp
  scan : Scan
  order : PixelOrder
  dither : DitherMethod
  invert : Bool
  srcBpp : SrcBpp
  /-- `L.Bpp`, bytes per source pixel. -/
  bytesPerPixel : Nat
  w : Nat
  h : Nat
  pw : Nat
  ph : Nat
  /-- `L.B`, the brightness. -/
  b : Nat
  /-- `L.C`, the contrast. -/
  c : Nat
  srcBase : Word
  dstBase : Word
  rowSize : Word
  outLen : Word
  deriving DecidableEq, Repr

/-- Bytes by address: the memory space (R35), and the plane's cells by their index in the plane buffer (R31). The
canonical form (`Memory.wf`): addresses strictly rising, no entry equal to what an unlisted address reads as. -/
abbrev Memory := List Host.Cell

/-- What happens next outside the engine: one host access, the reset input, or `engine`, which says that the
engine's step comes before the host's next access (R7, R74). An address on the host's bus is a `Nat`; an access's
width is in bits (R37). -/
inductive HostEvent where
  /-- The engine takes its step here. -/
  | engine
  /-- A register write of `data`, `width` bits wide, at the bus address `addr`. -/
  | regWrite (addr width : Nat) (data : Word)
  /-- A register read, `width` bits wide, at the bus address `addr`. -/
  | regRead (addr width : Nat)
  /-- The host writes a byte of the memory space; the event is the moment the write is performed (R51). -/
  | memWrite (addr : Word) (v : Byte)
  /-- The host reads a byte of the memory space. -/
  | memRead (addr : Word)
  /-- The reset input is asserted (R126). -/
  | reset
  deriving DecidableEq, Repr

/-- What the host's latest access gave it. -/
inductive HostReply where
  /-- A register or memory write was taken. -/
  | ack
  /-- A register read returned this word. -/
  | word (w : Word)
  /-- A host memory read returned this byte. -/
  | byte (b : Byte)
  /-- The error response to a refused register write (R37). -/
  | refusedWrite
  /-- The error response to a refused register read, with the word it returns (R37). -/
  | refusedRead (w : Word)
  deriving DecidableEq, Repr

/-- The machine: the block, the memory on its memory port, and the host's side of the two ports. -/
structure State where
  /-- The conversion registers `CONFIG` to `DST_BASE` (R17). -/
  regs : ConvRegs
  /-- `INTEN` bits 2:0 (R16). -/
  inten : BitVec 3
  /-- `STATUS` (R9). -/
  status : Status
  /-- `ROW_SIZE` (R20). -/
  rowSize : Word
  /-- `OUT_LEN` (R21). -/
  outLen : Word
  /-- `PEND`, the pending command word (R24). -/
  pend : Word
  /-- `S`, the command snapshot (R28). -/
  snap : ConvRegs
  /-- `L`, the latched configuration (R29). -/
  latch : Latch
  /-- `P`, the plane buffer, by cell index (R31). -/
  plane : Memory
  /-- The bytes of the memory space (R35). -/
  mem : Memory
  /-- The OPEN parameters (spec/00_scope.md section 4); no step changes them. -/
  platform : Platform
  /-- The host's accesses still to come, in order (R7, R19). The MODEL's field (notes/assumptions/4.md). -/
  inbox : List HostEvent
  /-- The response to the host's latest access (R37, R8). The MODEL's field (notes/assumptions/15.md). -/
  reply : Option HostReply
  /-- The memory addresses the host has written since `BUSY` became 1, without repeats (R54). The MODEL's field
  (notes/assumptions/9.md). -/
  touched : List Nat
  /-- How many free values have been used so far. The MODEL's field (notes/assumptions/8.md). -/
  freeCount : Nat
  deriving DecidableEq, Repr

/-- Why the machine stops. -/
inductive Fault where
  /-- A source or destination region overlaps the register window: `stuck`, the spec defines nothing (R46,
  spec/93_implementation_defined.md section 2). Raised by REDUCE, CONVERT and PACK.
  Safe (DEDUCED, notes/assumptions/10.md). -/
  | regionOverlapsWindow
  deriving DecidableEq, Repr

/-- Why the model gives an instruction no meaning. -/
inductive Refusal where
  /-- An instruction without a meaning yet, by its mnemonic; no arm answers it in this model. Safe. -/
  | notModelled (mnemonic : String)
  deriving DecidableEq, Repr

/-- The conversion registers after reset: 0, with neutral brightness and contrast 50 (R34). -/
def ConvRegs.reset : ConvRegs where
  config := 0x00000000#32
  width := 0x00000000#32
  height := 0x00000000#32
  brightness := 0x00000032#32
  contrast := 0x00000032#32
  srcBase := 0x00000000#32
  dstBase := 0x00000000#32

/-- `STATUS` after reset: every bit 0, `PK` EMPTY (R34). -/
def Status.reset : Status where
  busy := false
  done := false
  err := false
  ovr := false
  errcode := 0#4
  pk := .empty

/-- The snapshot's value after reset. The spec leaves it unspecified and never read (R34); DESIGN CHOICE, unsafe
(notes/assumptions/1.md): all zero. -/
def ConvRegs.resetSnapshot : ConvRegs where
  config := 0#32
  width := 0#32
  height := 0#32
  brightness := 0#32
  contrast := 0#32
  srcBase := 0#32
  dstBase := 0#32

/-- The latch's value after reset. The spec leaves it unspecified and never read (R34); DESIGN CHOICE, unsafe
(notes/assumptions/1.md): every field its first or zero value. -/
def Latch.reset : Latch where
  outBpp := .one
  scan := .horizontal
  order := .little
  dither := .none
  invert := false
  srcBpp := .b24
  bytesPerPixel := 0
  w := 0
  h := 0
  pw := 0
  ph := 0
  b := 0
  c := 0
  srcBase := 0#32
  dstBase := 0#32
  rowSize := 0#32
  outLen := 0#32

/-- The machine right after reset (R34, R126): the block idle and waiting for a `CMD` write, memory with nothing
listed, no host access to come. `PEND`, `S`, `L` and `P` hold values the spec leaves unspecified (DESIGN CHOICE,
unsafe, notes/assumptions/1.md), and the platform is the one of notes/assumptions/3.md. -/
def State.reset : State where
  regs := ConvRegs.reset
  inten := 0#3
  status := Status.reset
  rowSize := 0x00000000#32
  outLen := 0x00000000#32
  pend := 0#32
  snap := ConvRegs.resetSnapshot
  latch := Latch.reset
  plane := []
  mem := []
  platform := defaultPlatform
  inbox := []
  reply := none
  touched := []
  freeCount := 0

end Sys2Proof.Machine
end

