-- ==== Sys2Proof/Machine/Ops.lean ====
section
/-! DEFINITION. The shared operations: bytes by address, the memory port, loops, the plane's cells, and the two ways a
command ends. The block has no trap entry and no trap return (spec/60_exceptions.md R121): ending a command with an error
(`raiseError`, R115) is its one way of taking an exception, and `finish` (R114) is the successful end beside it. -/

namespace Sys2Proof.Machine

/-! ## Bytes by address -/

/-- What an unlisted address reads as. The spec gives memory no reset contents: DESIGN CHOICE, unsafe
(notes/assumptions/2.md). -/
def Memory.blank : Byte := 0#8

/-- The byte at an address. -/
def Memory.read : Memory → Nat → Byte
  | [], _ => Memory.blank
  | (k, b) :: m, a => if k = a then b else Memory.read m a

/-- Store one byte, keeping the canonical form: an address that comes to hold `Memory.blank` is not listed. -/
def Memory.write : Memory → Nat → Byte → Memory
  | [], a, v => if v = Memory.blank then [] else [(a, v)]
  | (k, b) :: m, a, v =>
    if a < k then (if v = Memory.blank then (k, b) :: m else (a, v) :: (k, b) :: m)
    else if a = k then (if v = Memory.blank then m else (a, v) :: m)
    else (k, b) :: Memory.write m a v

/-- Addresses strictly rising from `lo` on, and no entry equal to `Memory.blank`. -/
def Memory.wfFrom : Nat → Memory → Bool
  | _, [] => true
  | lo, (k, b) :: m => decide (lo ≤ k) && !(b == Memory.blank) && Memory.wfFrom (k + 1) m

/-- The canonical form. -/
def Memory.wf (m : Memory) : Bool := Memory.wfFrom 0 m

/-- Every listed address is below `n`. -/
def Memory.below (n : Nat) (m : Memory) : Bool := m.all (fun cell => cell.1 < n)

/-! ## Loops -/

/-- `for i in 0 .. n − 1`, in that order (spec/00_scope.md section 5.3). -/
def forRange {σ : Type} : Nat → (Nat → σ → σ) → σ → σ
  | 0, _, s => s
  | n + 1, f, s => f n (forRange n f s)

/-- `for y in 0 .. h − 1: for x in 0 .. w − 1`, row by row. -/
def forCells {σ : Type} (w h : Nat) (f : Nat → Nat → σ → σ) (s : σ) : σ :=
  forRange h (fun y t => forRange w (fun x u => f x y u) t) s

/-! ## The plane -/

/-- Where cell `P[x, y]` of a plane `pw` cells wide stands in the plane buffer. The spec leaves the layout open and
invisible (R31); DESIGN CHOICE, safe (notes/assumptions/6.md): row by row. -/
def cellIndex (pw x y : Nat) : Nat := y * pw + x

/-- `P[x, y]`. -/
def planeGet (p : Memory) (pw x y : Nat) : Byte := Memory.read p (cellIndex pw x y)

/-- `P[x, y] <- v`. -/
def planeSet (p : Memory) (pw x y : Nat) (v : Byte) : Memory := Memory.write p (cellIndex pw x y) v

/-- `P[x, y] <- f(x, y, P[x, y])` for every cell of a `pw × ph` plane, row by row. -/
def planeMap (pw ph : Nat) (f : Nat → Nat → Byte → Byte) (p : Memory) : Memory :=
  forCells pw ph (fun x y q => planeSet q pw x y (f x y (planeGet q pw x y))) p

/-! ## The memory port -/

/-- Every memory-space address is reduced modulo `2^32` (R36). -/
def portAddress (a : Nat) : Nat := a % memorySpace

/-- `BusOK(kind, a)`: whether the access completes without a bus error (spec/00_scope.md section 4). -/
def Platform.busOK (p : Platform) (kind : BusKind) (a : Nat) : Bool :=
  !(p.busFaults.any (fun r => decide (r.kind = kind) && decide (r.first ≤ a) && decide (a ≤ r.last)))

/-- `MemRead(a, 1)`: the byte at `a mod 2^32`, or `none` for `BUSERR` (R41). -/
def portRead (s : State) (a : Nat) : Option Byte :=
  if Platform.busOK s.platform .read (portAddress a) then some (Memory.read s.mem (portAddress a)) else none

/-- Whether `MemWrite` at `a mod 2^32` returns `OK` (R42). -/
def portWriteOK (s : State) (a : Nat) : Bool := Platform.busOK s.platform .write (portAddress a)

/-- The byte of the memory space a `MemWrite(a, 1, v)` that returns `OK` stores (R42). -/
def portWrite (m : Memory) (a : Nat) (v : Byte) : Memory := Memory.write m (portAddress a) v

/-- Whether the memory-space address `a` is one of the `len` bytes from `base` upward, modulo `2^32` (R44, R45). -/
def inRegion (base len a : Nat) : Bool :=
  decide (a < memorySpace) && decide ((a + memorySpace - base % memorySpace) % memorySpace < len)

/-- The size of the register window in bytes (`REG_WINDOW`, spec/00_scope.md section 4). -/
def windowSize : Nat := 64

/-- Whether a region overlaps the register window (R46). -/
def overlapsWindow (p : Platform) (base len : Nat) : Bool :=
  (List.range windowSize).any (fun j => inRegion base len (p.regBase + j))

/-! ## How a command ends -/

/-- The code of an error in `STATUS.ERRCODE` (R118). -/
def CmdError.code : CmdError → BitVec 4
  | .illegalCmd => 1#4
  | .badConfig => 2#4
  | .badDim => 3#4
  | .sequence => 4#4
  | .busRead => 5#4
  | .busWrite => 6#4

/-- The execution-phase errors, which release the plane (R115, R117). -/
def CmdError.releasesPlane : CmdError → Bool
  | .illegalCmd => false
  | .badConfig => false
  | .badDim => false
  | .sequence => false
  | .busRead => true
  | .busWrite => true

/-- `finish` (R114): `DONE` set, `BUSY` cleared, nothing else of the block changed. With no command running, no address
counts as written by the host during one. -/
def finish (s : State) : State :=
  { s with status := { s.status with done := true, busy := false }, touched := [] }

/-- `raise Error(code)` (R115): the plane released by an execution-phase error, `ERR` set, `ERRCODE` overwritten,
`BUSY` cleared; `DONE` and `OVR` as they were. -/
def raiseError (e : CmdError) (s : State) : State :=
  { s with
    status := { s.status with
      pk := if e.releasesPlane then .empty else s.status.pk
      err := true
      errcode := e.code
      busy := false }
    touched := [] }

/-- How far a command has come: its next stage may go on, it has raised an error, or the spec defines nothing from
here on. -/
inductive Progress where
  /-- The command goes on from this state. -/
  | going (s : State)
  /-- The command has raised this error in this state; the rest of its pseudocode is not performed (R115). -/
  | raised (e : CmdError) (s : State)
  /-- The machine stops. -/
  | stuck (f : Fault)

/-- The next stage of a command, performed only where the command goes on. -/
def Progress.andThen : Progress → (State → Progress) → Progress
  | .going s, f => f s
  | .raised e s, _ => .raised e s
  | .stuck r, _ => .stuck r

/-- A stage that cannot fail. -/
def Progress.thenDo (r : Progress) (f : State → State) : Progress := r.andThen (fun s => .going (f s))

/-- The end of the command: `finish`, or the error it raised (R74). -/
def Progress.outcome : Progress → Host.Outcome State Fault Refusal
  | .going s => .next (finish s)
  | .raised e s => .next (raiseError e s)
  | .stuck r => .fault r

end Sys2Proof.Machine
end

