-- ==== Sys2Proof/Machine/Operands.lean ====
section
/-! DEFINITION. The operands of the commands: a command word carries none (spec/30_encoding.md R58), so they are the
registers of the window, their snapshot, and what REDUCE and CONVERT compute and latch from it (spec/41_reduce.md R81 to
R83, spec/45_pack.md R104). Also the regions of memory the latched operands name (spec/20_memory.md R43 to R45). -/

namespace Sys2Proof.Machine

/-- `ceil_div(a, b)` for `b > 0` (spec/00_scope.md section 5.2). -/
def ceilDiv (a b : Nat) : Nat := (a + b - 1) / b

/-- `clamp(v, lo, hi)` (spec/00_scope.md section 5.2). -/
def clamp (v lo hi : Int) : Int := if v < lo then lo else if hi < v then hi else v

/-- The byte of an integer that a rule has brought into `0..255`. -/
def byteOfInt (v : Int) : Byte := BitVec.ofNat 8 v.toNat

/-! ## Check and latch -/

/-- `sext_32(v)`, a 32-bit word read as two's complement (R62). -/
def signedWord (v : Word) : Int := if v.toNat < 2147483648 then (v.toNat : Int) else (v.toNat : Int) - 4294967296

/-- `L.Bpp`, bytes per source pixel: `SRC_BPP / 8` (R29). -/
def bytesPerPixelOf (b : SrcBpp) : Nat := b.value / 8

/-- `PW`: `W` rounded up to even when the output is 4 bpp, else `W` (R29, R81). -/
def planeWidthOf (ob : OutBpp) (w : Nat) : Nat :=
  match ob with
  | .four => w + w % 2
  | .one => w

/-- `RowSize(W, Bpp) = ceil_div(W × Bpp, 4) × 4` (R83). -/
def rowSizeOf (w bytesPerPixel : Nat) : Nat := ceilDiv (w * bytesPerPixel) 4 * 4

/-- `OutLen(L)` for the four layouts (R104). -/
def outLenOf (ob : OutBpp) (sc : Scan) (w pw ph : Nat) : Nat :=
  match ob, sc with
  | .four, .horizontal => pw / 2 * ph
  | .four, .vertical => pw * ceilDiv ph 2
  | .one, .horizontal => ceilDiv w 8 * ph
  | .one, .vertical => w * ceilDiv ph 8

/-- What `CheckAndLatch()` latches from a legal configuration and legal operands (R82). -/
def makeLatch (f : ConfigFields) (r : ConvRegs) (w h : Nat) : Latch where
  outBpp := f.outBpp
  scan := f.scan
  order := f.order
  dither := f.dither
  invert := f.invert
  srcBpp := f.srcBpp
  bytesPerPixel := bytesPerPixelOf f.srcBpp
  w := w
  h := h
  pw := planeWidthOf f.outBpp w
  ph := h
  b := r.brightness.toNat
  c := r.contrast.toNat
  srcBase := r.srcBase
  dstBase := r.dstBase
  rowSize := BitVec.ofNat 32 (rowSizeOf w (bytesPerPixelOf f.srcBpp))
  outLen := BitVec.ofNat 32 (outLenOf f.outBpp f.scan w (planeWidthOf f.outBpp w) h)

/-- The checks of `CheckAndLatch()` on the operands `r`, in the spec's order, with the first error that applies
(R81), or the latch of R82. -/
def latchOf (planeCapacity : Nat) (r : ConvRegs) : Except CmdError Latch :=
  match decodeConfig r.config with
  | none => .error .badConfig
  | some f =>
    if 100 < r.brightness.toNat ∨ 100 < r.contrast.toNat then .error .badConfig
    else if signedWord r.width < 1 ∨ signedWord r.height < 1 then .error .badDim
    else if planeCapacity < planeWidthOf f.outBpp (signedWord r.width).toNat * (signedWord r.height).toNat then
      .error .badDim
    else .ok (makeLatch f r (signedWord r.width).toNat (signedWord r.height).toNat)

/-- The state with the latch and the two read-only registers written (R82). -/
def writeLatch (L : Latch) (s : State) : State :=
  { s with latch := L, rowSize := L.rowSize, outLen := L.outLen }

/-- `CheckAndLatch()` on the snapshot (R81, R82). -/
def checkAndLatch (s : State) : Progress :=
  match latchOf s.platform.planeCapacity s.snap with
  | .error e => .raised e s
  | .ok L => .going (writeLatch L s)

/-! ## Stage requirements (R76) -/

/-- ADJUST and DITHER need `PK = LUMA8` and `L.OUT_BPP = 1`. -/
def requireLumaForOneBpp (s : State) : Progress :=
  if s.status.pk = .luma8 then (if s.latch.outBpp = .one then .going s else .raised .sequence s)
  else .raised .sequence s

/-- QUANTIZE needs `PK = LUMA8`. -/
def requireLuma (s : State) : Progress :=
  if s.status.pk = .luma8 then .going s else .raised .sequence s

/-- PACK needs `PK ∈ {LEVEL1, LEVEL4}`. -/
def requireLevels (s : State) : Progress :=
  if s.status.pk = .level1 ∨ s.status.pk = .level4 then .going s else .raised .sequence s

/-! ## Regions -/

/-- The address, before reduction, of byte 0 of the source pixel for the output cell `(x, y)`, which stands in the
stored row `L.H − 1 − y` (R43, R85). -/
def sourceAddress (L : Latch) (x y : Nat) : Nat :=
  L.srcBase.toNat + (L.h - 1 - y) * L.rowSize.toNat + x * L.bytesPerPixel

/-- The length of the source region, `L.ROW_SIZE × L.H` (R44). -/
def sourceLength (L : Latch) : Nat := L.rowSize.toNat * L.h

/-- The address, before reduction, of byte `i` of the destination region (R45). -/
def destAddress (L : Latch) (i : Nat) : Nat := L.dstBase.toNat + i

/-- The destination region of the command that runs while `BUSY = 1`, as a base and a length: PACK's from the latch
when its requirement holds, CONVERT's from the snapshot when its checks pass (R45, R54, R76, R81). -/
def runningDest (s : State) : Option (Nat × Nat) :=
  match decode s.pend with
  | .pack =>
    if s.status.pk = .level1 ∨ s.status.pk = .level4 then some (s.latch.dstBase.toNat, s.latch.outLen.toNat) else none
  | .convert =>
    match latchOf s.platform.planeCapacity s.snap with
    | .ok L => some (L.dstBase.toNat, L.outLen.toNat)
    | .error _ => none
  | _ => none

/-- The host's duty on the source region: where it overlaps the register window the spec defines nothing (R46). -/
def requireSourceClear (s : State) : Progress :=
  if overlapsWindow s.platform s.latch.srcBase.toNat (sourceLength s.latch) then .stuck .regionOverlapsWindow
  else .going s

/-- The host's duty on the destination region: where it overlaps the register window the spec defines nothing (R46). -/
def requireDestClear (s : State) : Progress :=
  if overlapsWindow s.platform s.latch.dstBase.toNat s.latch.outLen.toNat then .stuck .regionOverlapsWindow
  else .going s

/-! ## The register window -/

/-- The register at slot `k`, offset `4 × k` (spec/10_state.md section 2). -/
def regOfSlot : Nat → Reg
  | 0 => .cmd
  | 1 => .status
  | 2 => .inten
  | 3 => .config
  | 4 => .width
  | 5 => .height
  | 6 => .brightness
  | 7 => .contrast
  | 8 => .srcBase
  | 9 => .dstBase
  | 10 => .rowSize
  | 11 => .outLen
  | _ => .reserved

/-- A register's offset in the window; the first of the four for `reserved` (spec/10_state.md section 2, R22). -/
def regOffset : Reg → Nat
  | .cmd => 0x00
  | .status => 0x04
  | .inten => 0x08
  | .config => 0x0C
  | .width => 0x10
  | .height => 0x14
  | .brightness => 0x18
  | .contrast => 0x1C
  | .srcBase => 0x20
  | .dstBase => 0x24
  | .rowSize => 0x28
  | .outLen => 0x2C
  | .reserved => 0x30

/-- The register an access reaches: a 32-bit access at `REG_BASE + 4k`, `k ∈ 0..15`; `none` where the block refuses
the access (R37). -/
def regAt (p : Platform) (addr width : Nat) : Option Reg :=
  if width = 32 ∧ p.regBase ≤ addr ∧ addr < p.regBase + windowSize ∧ (addr - p.regBase) % 4 = 0 then
    some (regOfSlot ((addr - p.regBase) / 4))
  else none

end Sys2Proof.Machine
end

