-- ==== Sys2Proof/Machine/Control.lean ====
section
/-! DEFINITION. What a host write of `CMD` does, and the meanings of NOP and of the illegal words
(spec/40_control.md R72, R73, R75). -/

namespace Sys2Proof.Machine

/-- The acceptance of the command word `w`: `PEND`, the snapshot and `BUSY` are written together (R72). -/
def acceptCommand (w : Word) (s : State) : State :=
  { s with pend := w, snap := s.regs, status := { s.status with busy := true }, touched := [] }

/-- A host write of `w` to `CMD` (R72): dropped with `OVR` set while a command runs; no effect for the word 0; else
accepted. -/
def cmdWrite (w : Word) (s : State) : State :=
  if s.status.busy then { s with status := { s.status with ovr := true } }
  else if w = 0x00000000#32 then s
  else acceptCommand w s

/-- NOP (R73): a host write of the word 0 to `CMD`. It never reaches the engine; while a command runs it sets `OVR`
like any other word. -/
def execNop (s : State) : Host.Outcome State Fault Refusal := .next (cmdWrite 0x00000000#32 s)

/-- An illegal command word (R75): `ILLEGAL_CMD`, a pre-check error, whichever illegal word it is. -/
def execIllegal (_w : Word) (s : State) : Host.Outcome State Fault Refusal :=
  (Progress.raised .illegalCmd s).outcome

end Sys2Proof.Machine
end

