-- ==== Sys2Proof/Machine/Adjust.lean ====
section
/-! DEFINITION. ADJUST: brightness and contrast (spec/42_adjust.md). -/

namespace Sys2Proof.Machine

/-- `N = 500 × u` exactly, `u` being the unclamped real result of brightness then contrast (R89, R90). -/
def adjustNumerator (v b c : Nat) : Int := (10 * (v : Int) + 51 * ((b : Int) - 50) - 1275) * (c : Int) + 63750

/-- `Adjust(v, b, c)` (R90): 0 below zero, else the floor of `N / 500`, at most 255. -/
def adjustValue (v : Byte) (b c : Nat) : Byte :=
  if adjustNumerator v.toNat b c < 0 then 0#8
  else byteOfInt (min 255 (Int.fdiv (adjustNumerator v.toNat b c) 500))

/-- `AdjustBody()` (R92): every cell on its own; `PK` stays LUMA8. -/
def adjustBody (s : State) : State :=
  { s with plane := planeMap s.latch.pw s.latch.ph (fun _ _ v => adjustValue v s.latch.b s.latch.c) s.plane }

/-- ADJUST (R92). -/
def execAdjust (s : State) : Host.Outcome State Fault Refusal := ((requireLumaForOneBpp s).thenDo adjustBody).outcome

end Sys2Proof.Machine
end

