-- ==== Sys2Proof/Machine/Dither.lean ====
section
/-! DEFINITION. DITHER: Floyd-Steinberg and ordered 8×8, selected by `L.DITHER` (spec/43_dither.md). The three variant
rows of the table have DITHER's word, and the latch decides which of them that word runs
(spec/30_encoding.md R68): where it selects another, a variant's meaning is what the word does. -/

namespace Sys2Proof.Machine

/-- The quantization of one cell: 255 when strictly above 127, else 0 (R95). -/
def floydQuantize (v : Byte) : Byte := if 127 < v.toNat then 255#8 else 0#8

/-- `trunc_div(a, b)` for `b > 0`, rounded toward zero (spec/00_scope.md section 5.2). -/
def truncDiv (a b : Int) : Int := Int.tdiv a b

/-- `clamp(v + trunc_div(e × k, 16), 0, 255)`, a neighbour's value after its share of the error (R95). -/
def diffuse (v : Byte) (e k : Int) : Byte := byteOfInt (clamp ((v.toNat : Int) + truncDiv (e * k) 16) 0 255)

/-- `Spread(i, j, e, k)` on a `w × h` plane; a position outside the plane is skipped (R95). -/
def spread (w h : Nat) (e k i j : Int) (p : Memory) : Memory :=
  if 0 ≤ i ∧ i < (w : Int) ∧ 0 ≤ j ∧ j < (h : Int) then
    planeSet p w i.toNat j.toNat (diffuse (planeGet p w i.toNat j.toNat) e k)
  else p

/-- The four neighbours of `(x, y)` with their weights 7, 3, 5 and 1 sixteenths (R95). -/
def spreadAll (w h x y : Nat) (e : Int) (p : Memory) : Memory :=
  spread w h e 1 ((x : Int) + 1) ((y : Int) + 1)
    (spread w h e 5 (x : Int) ((y : Int) + 1)
      (spread w h e 3 ((x : Int) - 1) ((y : Int) + 1)
        (spread w h e 7 ((x : Int) + 1) (y : Int) p)))

/-- One pixel of `FloydSteinberg()`: quantize in place, then spread `e = old − q` (R95). -/
def floydCell (w h x y : Nat) (p : Memory) : Memory :=
  spreadAll w h x y (((planeGet p w x y).toNat : Int) - ((floydQuantize (planeGet p w x y)).toNat : Int))
    (planeSet p w x y (floydQuantize (planeGet p w x y)))

/-- `FloydSteinberg()`: top to bottom, left to right in every row, in place (R95). -/
def floydSteinberg (w h : Nat) (p : Memory) : Memory := forCells w h (floydCell w h) p

/-- `BAYER[y mod 8][x mod 8]` (R97). -/
def bayerAt (pf : Platform) (x y : Nat) : Nat :=
  (pf.bayer[y % 8 * 8 + x % 8]'(by omega)).toNat

/-- One cell of `Ordered()`: 255 when the cell is strictly above the matrix entry, unscaled (R97, R99). -/
def orderedValue (pf : Platform) (x y : Nat) (v : Byte) : Byte :=
  if bayerAt pf x y < v.toNat then 255#8 else 0#8

/-- `Ordered()` (R97). -/
def ordered (pf : Platform) (w h : Nat) (p : Memory) : Memory := planeMap w h (orderedValue pf) p

/-- The variant DITHER.none: no cell changes (R94). -/
def ditherNoneBody (s : State) : State := s

/-- The variant DITHER.floyd (R95). -/
def ditherFloydBody (s : State) : State := { s with plane := floydSteinberg s.latch.pw s.latch.ph s.plane }

/-- The variant DITHER.o8x8 (R97). -/
def ditherOrderedBody (s : State) : State := { s with plane := ordered s.platform s.latch.pw s.latch.ph s.plane }

/-- `DitherBody()`: the variant `L.DITHER` selects; `PK` stays LUMA8 (R93). -/
def ditherBody (s : State) : State :=
  match s.latch.dither with
  | .none => ditherNoneBody s
  | .floyd => ditherFloydBody s
  | .ordered => ditherOrderedBody s

/-- DITHER (R93). -/
def execDither (s : State) : Host.Outcome State Fault Refusal := ((requireLumaForOneBpp s).thenDo ditherBody).outcome

/-- DITHER.none: DITHER's word where `L.DITHER = 0` (R94). -/
def execDitherNone (s : State) : Host.Outcome State Fault Refusal :=
  ((requireLumaForOneBpp s).thenDo
    (fun t => if t.latch.dither = .none then ditherNoneBody t else ditherBody t)).outcome

/-- DITHER.floyd: DITHER's word where `L.DITHER = 1` (R95). -/
def execDitherFloyd (s : State) : Host.Outcome State Fault Refusal :=
  ((requireLumaForOneBpp s).thenDo
    (fun t => if t.latch.dither = .floyd then ditherFloydBody t else ditherBody t)).outcome

/-- DITHER.o8x8: DITHER's word where `L.DITHER = 2` (R97). -/
def execDitherOrdered (s : State) : Host.Outcome State Fault Refusal :=
  ((requireLumaForOneBpp s).thenDo
    (fun t => if t.latch.dither = .ordered then ditherOrderedBody t else ditherBody t)).outcome

end Sys2Proof.Machine
end

