-- ==== Sys2Proof/Machine/Pack.lean ====
section
/-! DEFINITION. PACK: the four layouts, selected by `L.OUT_BPP` and `L.SCAN`, the invert and the destination writes
(spec/45_pack.md). The four variant rows of the table have PACK's word, and the latch decides which of them that word
runs (spec/30_encoding.md R68): where it selects another, a variant's meaning is what the word does. -/

namespace Sys2Proof.Machine

/-! ## The packed bytes -/

/-- The byte of a pair: the first pixel `a` in the high nibble for `ORDER = 0`, in the low nibble for `ORDER = 1`
(R107, R108). -/
def pairByte (o : PixelOrder) (a b : Byte) : Byte :=
  match o with
  | .little => (a <<< 4) ||| b
  | .big => (b <<< 4) ||| a

/-- `Pack4H` (R107). -/
def pack4H (L : Latch) (p : Memory) (out : List Byte) : List Byte :=
  forRange L.ph (fun y o =>
    forRange (ceilDiv L.pw 2) (fun j o =>
      o.set (y * (L.pw / 2) + 2 * j / 2)
        (pairByte L.order (planeGet p L.pw (2 * j) y)
          (if 2 * j + 1 < L.pw then planeGet p L.pw (2 * j + 1) y else 0#8))) o) out

/-- `Pack4V` (R108). -/
def pack4V (L : Latch) (p : Memory) (out : List Byte) : List Byte :=
  forRange L.pw (fun x o =>
    forRange (ceilDiv L.ph 2) (fun j o =>
      o.set (x * ceilDiv L.ph 2 + 2 * j / 2)
        (pairByte L.order (planeGet p L.pw x (2 * j))
          (if 2 * j + 1 < L.ph then planeGet p L.pw x (2 * j + 1) else 0#8))) o) out

/-- The bit of a horizontal 1-bpp byte for the pixel `off` places into its group: bit `7 − off` for `ORDER = 0`, bit
`off` for `ORDER = 1` (R109). -/
def horizontalBit (o : PixelOrder) (off : Nat) : Byte :=
  match o with
  | .little => 1#8 <<< (7 - off)
  | .big => 1#8 <<< off

/-- The bit of a vertical 1-bpp byte, the mirror of the horizontal one: bit `off` for `ORDER = 0`, bit `7 − off` for
`ORDER = 1` (R110, spec/90_conflicts.md C3). -/
def verticalBit (o : PixelOrder) (off : Nat) : Byte :=
  match o with
  | .little => 1#8 <<< off
  | .big => 1#8 <<< (7 - off)

/-- `out[i] <- out[i] | bits`. -/
def orInto (out : List Byte) (i : Nat) (bits : Byte) : List Byte := out.set i (out.getD i 0#8 ||| bits)

/-- `Pack1H` (R109). -/
def pack1H (L : Latch) (p : Memory) (out : List Byte) : List Byte :=
  forRange L.ph (fun y o =>
    forRange L.w (fun x o =>
      if planeGet p L.pw x y = 1#8 then orInto o (y * ceilDiv L.w 8 + x / 8) (horizontalBit L.order (x % 8))
      else o) o) out

/-- `Pack1V` (R110). -/
def pack1V (L : Latch) (p : Memory) (out : List Byte) : List Byte :=
  forRange L.w (fun x o =>
    forRange L.ph (fun y o =>
      if planeGet p L.pw x y = 1#8 then orInto o (x * ceilDiv L.ph 8 + y / 8) (verticalBit L.order (y % 8))
      else o) o) out

/-- The layout `L.OUT_BPP` and `L.SCAN` select (R68, R105). -/
def layoutOf (ob : OutBpp) (sc : Scan) : Latch → Memory → List Byte → List Byte :=
  match ob, sc with
  | .four, .horizontal => pack4H
  | .four, .vertical => pack4V
  | .one, .horizontal => pack1H
  | .one, .vertical => pack1V

/-- `out[0 .. L.OUT_LEN − 1] <- 0`, filled by a layout, each byte complemented when `L.INVERT = 1` (R105, R111). -/
def packedBytes (layout : Latch → Memory → List Byte → List Byte) (L : Latch) (p : Memory) : List Byte :=
  let out := layout L p (List.replicate L.outLen.toNat 0#8)
  if L.invert then out.map (fun v => v ^^^ 0xFF#8) else out

/-! ## The destination writes -/

/-- The byte that destination byte `i` holds after its write. Where the host has written it while the command ran, it
is the host's value or the block's, which of the two being free (R54). -/
def destByte (s : State) (out : List Byte) (i : Nat) : Byte :=
  if s.touched.contains (portAddress (destAddress s.latch i)) then
    (if Config.freeBit (s.freeCount + i) then out.getD i 0#8
     else Memory.read s.mem (portAddress (destAddress s.latch i)))
  else out.getD i 0#8

/-- Whether every destination byte's write returns `OK` (R106). -/
def destOK (s : State) : Bool :=
  (List.range s.latch.outLen.toNat).all (fun i => portWriteOK s (destAddress s.latch i))

/-- The memory space with destination byte `i` set to `f i` for each `i`, in the order of the index. -/
def storeDest (L : Latch) (f : Nat → Byte) (m : Memory) : Memory :=
  forRange L.outLen.toNat (fun i m => portWrite m (destAddress L i) (f i)) m

/-- The destination writes of `PackBody()` (R105, R106): `PK` EMPTY at the end. If any write returns `BUSERR`, every
destination byte holds a free value (R106, R117). -/
def writeDest (out : List Byte) (s : State) : Progress :=
  if destOK s then
    .going { s with
      mem := storeDest s.latch (destByte s out) s.mem
      status := { s.status with pk := .empty }
      freeCount := s.freeCount + s.latch.outLen.toNat }
  else
    .raised .busWrite { s with
      mem := storeDest s.latch (fun i => Config.freeByte (s.freeCount + i)) s.mem
      freeCount := s.freeCount + s.latch.outLen.toNat }

/-- The destination writes, given a destination region clear of the register window (R46). -/
def writePacked (out : List Byte) (s : State) : Progress := (requireDestClear s).andThen (writeDest out)

/-- `PackBody()` with one layout. -/
def packWith (layout : Latch → Memory → List Byte → List Byte) (s : State) : Progress :=
  writePacked (packedBytes layout s.latch s.plane) s

/-- `PackBody()`: the layout `L.OUT_BPP` and `L.SCAN` select (R105). -/
def packBody (s : State) : Progress := packWith (layoutOf s.latch.outBpp s.latch.scan) s

/-- PACK (R105). -/
def execPack (s : State) : Host.Outcome State Fault Refusal := ((requireLevels s).andThen packBody).outcome

/-- PACK.4bpp.h: PACK's word where `L.OUT_BPP = 4` and `L.SCAN = 0` (R107). -/
def execPack4h (s : State) : Host.Outcome State Fault Refusal :=
  ((requireLevels s).andThen (fun t =>
    if t.latch.outBpp = .four ∧ t.latch.scan = .horizontal then packWith pack4H t else packBody t)).outcome

/-- PACK.4bpp.v: PACK's word where `L.OUT_BPP = 4` and `L.SCAN = 1` (R108). -/
def execPack4v (s : State) : Host.Outcome State Fault Refusal :=
  ((requireLevels s).andThen (fun t =>
    if t.latch.outBpp = .four ∧ t.latch.scan = .vertical then packWith pack4V t else packBody t)).outcome

/-- PACK.1bpp.h: PACK's word where `L.OUT_BPP = 1` and `L.SCAN = 0` (R109). -/
def execPack1h (s : State) : Host.Outcome State Fault Refusal :=
  ((requireLevels s).andThen (fun t =>
    if t.latch.outBpp = .one ∧ t.latch.scan = .horizontal then packWith pack1H t else packBody t)).outcome

/-- PACK.1bpp.v: PACK's word where `L.OUT_BPP = 1` and `L.SCAN = 1` (R110). -/
def execPack1v (s : State) : Host.Outcome State Fault Refusal :=
  ((requireLevels s).andThen (fun t =>
    if t.latch.outBpp = .one ∧ t.latch.scan = .vertical then packWith pack1V t else packBody t)).outcome

end Sys2Proof.Machine
end

