-- ==== Sys2Proof/Machine/Quantize.lean ====
section
/-! DEFINITION. QUANTIZE: the 1-bpp threshold and the 4-bpp scale, selected by `L.OUT_BPP` (spec/44_quantize.md). The two
variant rows of the table have QUANTIZE's word, and the latch decides which of them that word runs
(spec/30_encoding.md R68): where it selects the other, a variant's meaning is what the word does. -/

namespace Sys2Proof.Machine

/-- `Q1(v)`: 1 when strictly above 127, else 0 (R102). -/
def quantizeOne (v : Byte) : Byte := if 127 < v.toNat then 1#8 else 0#8

/-- `Q4(v) = min(15, floor_div(v, 16))` (R103). -/
def quantizeFour (v : Byte) : Byte := BitVec.ofNat 8 (min 15 (v.toNat / 16))

/-- The variant QUANTIZE.1bpp: every cell by `Q1`, `PK` LEVEL1 (R101, R102). -/
def quantizeOneBody (s : State) : State :=
  { s with
    plane := planeMap s.latch.pw s.latch.ph (fun _ _ v => quantizeOne v) s.plane
    status := { s.status with pk := .level1 } }

/-- The variant QUANTIZE.4bpp: every cell by `Q4`, `PK` LEVEL4 (R101, R103). -/
def quantizeFourBody (s : State) : State :=
  { s with
    plane := planeMap s.latch.pw s.latch.ph (fun _ _ v => quantizeFour v) s.plane
    status := { s.status with pk := .level4 } }

/-- `QuantizeBody()`: the variant `L.OUT_BPP` selects (R101). -/
def quantizeBody (s : State) : State :=
  match s.latch.outBpp with
  | .one => quantizeOneBody s
  | .four => quantizeFourBody s

/-- QUANTIZE (R101). -/
def execQuantize (s : State) : Host.Outcome State Fault Refusal := ((requireLuma s).thenDo quantizeBody).outcome

/-- QUANTIZE.1bpp: QUANTIZE's word where `L.OUT_BPP = 1` (R102). -/
def execQuantize1 (s : State) : Host.Outcome State Fault Refusal :=
  ((requireLuma s).thenDo (fun t => if t.latch.outBpp = .one then quantizeOneBody t else quantizeBody t)).outcome

/-- QUANTIZE.4bpp: QUANTIZE's word where `L.OUT_BPP = 4` (R103). -/
def execQuantize4 (s : State) : Host.Outcome State Fault Refusal :=
  ((requireLuma s).thenDo (fun t => if t.latch.outBpp = .four then quantizeFourBody t else quantizeBody t)).outcome

end Sys2Proof.Machine
end

