-- ==== Sys2Proof/Machine/Reduce.lean ====
section
/-! DEFINITION. REDUCE: the configuration latch and the luminance of the source pixels (spec/41_reduce.md). -/

namespace Sys2Proof.Machine

/-- `Luma(R, G, B) = floor_div(299 × R + 587 × G + 114 × B, 1000)`, exactly (R87, R88). -/
def luma (r g b : Byte) : Byte :=
  BitVec.ofNat 8 ((299 * r.toNat + 587 * g.toNat + 114 * b.toNat) / 1000)

/-- Whether the host has written one of the three source bytes of a pixel while the command runs (R54). -/
def sourceTouched (s : State) (a : Nat) : Bool :=
  s.touched.contains (portAddress a) || s.touched.contains (portAddress (a + 1))
    || s.touched.contains (portAddress (a + 2))

/-- The value of cell `P[x, y]` that the loop body of `ReduceBody()` writes, or `none` when a read of one of the
pixel's three bytes returns `BUSERR` (R85). The alpha byte and the row padding are not read (R43, R86). Where the host
has written one of the three bytes while `BUSY = 1` the value is a free one (R54). -/
def reducedCell (s : State) (x y : Nat) : Option Byte :=
  if x < s.latch.w then
    match portRead s (sourceAddress s.latch x y), portRead s (sourceAddress s.latch x y + 1),
        portRead s (sourceAddress s.latch x y + 2) with
    | some b, some g, some r =>
      some (if sourceTouched s (sourceAddress s.latch x y) then
        Config.freeByte (s.freeCount + cellIndex s.latch.pw x y) else luma r g b)
    | _, _, _ => none
  else some 0#8

/-- One turn of the loops of `ReduceBody()` on the plane and whether a read has failed: after a failing read nothing
more is written (R85, R115). -/
def reduceCell (s : State) (x y : Nat) (acc : Memory × Bool) : Memory × Bool :=
  if acc.2 then acc
  else match reducedCell s x y with
    | none => (acc.1, true)
    | some v => (planeSet acc.1 s.latch.pw x y v, false)

/-- The plane after the loops of `ReduceBody()`, and whether a source byte's read has failed (R85). -/
def reducedPlane (s : State) : Memory × Bool :=
  forCells s.latch.pw s.latch.ph (reduceCell s) (s.plane, false)

/-- The state with the plane `p` in the plane buffer and one counter value used for each cell. -/
def withReducedPlane (p : Memory) (s : State) : State :=
  { s with plane := p, freeCount := s.freeCount + s.latch.pw * s.latch.ph }

/-- The loops of `ReduceBody()` and their end: `BUS_READ`, or a LUMA8 plane (R85). -/
def fillPlane (s : State) : Progress :=
  if (reducedPlane s).2 then .raised .busRead (withReducedPlane (reducedPlane s).1 s)
  else .going { withReducedPlane (reducedPlane s).1 s with status := { s.status with pk := .luma8 } }

/-- `ReduceBody()` (R85), given a source region clear of the register window (R46). -/
def reduceBody (s : State) : Progress := (requireSourceClear s).andThen fillPlane

/-- REDUCE (R84). -/
def execReduce (s : State) : Host.Outcome State Fault Refusal := ((checkAndLatch s).andThen reduceBody).outcome

end Sys2Proof.Machine
end

