-- ==== Sys2Proof/Machine/Convert.lean ====
section
/-! DEFINITION. CONVERT: the whole pipeline as one command (spec/46_convert.md). -/

namespace Sys2Proof.Machine

/-- The stages that CONVERT runs for 1 bpp between REDUCE's and QUANTIZE's: adjustment, then the ditherer when a method
is selected (R112). -/
def oneBppStages (s : State) : State :=
  match s.latch.outBpp with
  | .one => if s.latch.dither = .none then adjustBody s else ditherBody (adjustBody s)
  | .four => s

/-- `CheckAndLatch()`, after which both regions of the conversion are known; the spec defines nothing for a conversion
whose destination region overlaps the register window, however its source reads end (R46). `reduceBody` looks at the
source region. -/
def startConversion (s : State) : Progress := (checkAndLatch s).andThen requireDestClear

/-- CONVERT (R112). -/
def execConvert (s : State) : Host.Outcome State Fault Refusal :=
  (((((startConversion s).andThen reduceBody).thenDo oneBppStages).thenDo quantizeBody).andThen packBody).outcome

end Sys2Proof.Machine
end

