-- ==== Sys2Proof/Machine/Dispatch.lean ====
section
/-! DEFINITION. One arm per row of spec/opcode_table.json, each a direct call of its meaning. -/

namespace Sys2Proof.Machine

def exec (i : Instr) (s : State) : Host.Outcome State Fault Refusal :=
  match i with
  | .nop => Sys2Proof.Machine.execNop s
  | .convert => Sys2Proof.Machine.execConvert s
  | .reduce => Sys2Proof.Machine.execReduce s
  | .adjust => Sys2Proof.Machine.execAdjust s
  | .dither => Sys2Proof.Machine.execDither s
  | .quantize => Sys2Proof.Machine.execQuantize s
  | .pack => Sys2Proof.Machine.execPack s
  | .ditherNone => Sys2Proof.Machine.execDitherNone s
  | .ditherFloyd => Sys2Proof.Machine.execDitherFloyd s
  | .ditherOrdered => Sys2Proof.Machine.execDitherOrdered s
  | .quantize1 => Sys2Proof.Machine.execQuantize1 s
  | .quantize4 => Sys2Proof.Machine.execQuantize4 s
  | .pack4h => Sys2Proof.Machine.execPack4h s
  | .pack4v => Sys2Proof.Machine.execPack4v s
  | .pack1h => Sys2Proof.Machine.execPack1h s
  | .pack1v => Sys2Proof.Machine.execPack1v s
  | .illegal w => Sys2Proof.Machine.execIllegal w s

end Sys2Proof.Machine
end

