-- ==== Sys2Proof/Machine/Flags.lean ====
section
/-! DEFINITION. The flags: `STATUS` as a word (spec/10_state.md R9 to R15), its write-one-to-clear write
(spec/40_control.md R78), `INTEN` (R16) and the interrupt output (spec/60_exceptions.md R120). The block has no
arithmetic flags (R23). -/

namespace Sys2Proof.Machine

/-- The number `PK` holds (R15). -/
def PlaneKind.code : PlaneKind → Nat
  | .empty => 0
  | .luma8 => 1
  | .level1 => 2
  | .level4 => 3

/-- `STATUS` as the host reads it: `BUSY` bit 0, `DONE` bit 1, `ERR` bit 2, `OVR` bit 3, `ERRCODE` bits 7:4, `PK` bits
9:8, the rest 0 (R9). -/
def statusWord (t : Status) : Word :=
  BitVec.ofNat 32 (t.busy.toNat + t.done.toNat * 2 + t.err.toNat * 4 + t.ovr.toNat * 8 + t.errcode.toNat * 16
    + t.pk.code * 256)

/-- A host write of `w` to `STATUS` (R65, R78). -/
def statusAfterWrite (w : Word) (t : Status) : Status :=
  { t with
    done := if w.getLsbD 1 then false else t.done
    err := if w.getLsbD 2 then false else t.err
    errcode := if w.getLsbD 2 then 0#4 else t.errcode
    ovr := if w.getLsbD 3 then false else t.ovr }

/-- `INTEN` after a host write of `w`: bits 2:0 are stored, the others ignored (R16, R66). -/
def intenAfterWrite (w : Word) : BitVec 3 := w.extractLsb' 0 3

/-- `INTEN` as the host reads it: bits 31:3 are 0 (R16). -/
def intenWord (v : BitVec 3) : Word := v.setWidth 32

/-- The interrupt output (R33, R120). -/
def irq (s : State) : Bool :=
  (s.status.done && s.inten.getLsbD 0) || (s.status.err && s.inten.getLsbD 1) || (s.status.ovr && s.inten.getLsbD 2)

end Sys2Proof.Machine
end

