-- ==== Sys2Proof/Machine/HostPort.lean ====
section
/-! DEFINITION. The host's side: register reads and writes (spec/10_state.md section 2, spec/20_memory.md R37), its
accesses to the memory it owns (spec/20_memory.md R51 to R54), the reset input (spec/70_reset_and_hazards.md R126) and
the notation of host programs (spec/30_encoding.md R70, R71). -/

namespace Sys2Proof.Machine

/-- A host read of a register: no side effect (R39). `CMD` and the reserved slots read 0 (R8, R22). -/
def regRead (s : State) : Reg → Word
  | .cmd => 0x00000000#32
  | .status => statusWord s.status
  | .inten => intenWord s.inten
  | .config => s.regs.config
  | .width => s.regs.width
  | .height => s.regs.height
  | .brightness => s.regs.brightness
  | .contrast => s.regs.contrast
  | .srcBase => s.regs.srcBase
  | .dstBase => s.regs.dstBase
  | .rowSize => s.rowSize
  | .outLen => s.outLen
  | .reserved => 0x00000000#32

/-- A host write of a register (R16, R17, R72, R78); `ROW_SIZE`, `OUT_LEN` and the reserved slots ignore it (R20, R21,
R22). -/
def regWrite (r : Reg) (w : Word) (s : State) : State :=
  match r with
  | .cmd => cmdWrite w s
  | .status => { s with status := statusAfterWrite w s.status }
  | .inten => { s with inten := intenAfterWrite w }
  | .config => { s with regs := { s.regs with config := w } }
  | .width => { s with regs := { s.regs with width := w } }
  | .height => { s with regs := { s.regs with height := w } }
  | .brightness => { s with regs := { s.regs with brightness := w } }
  | .contrast => { s with regs := { s.regs with contrast := w } }
  | .srcBase => { s with regs := { s.regs with srcBase := w } }
  | .dstBase => { s with regs := { s.regs with dstBase := w } }
  | .rowSize => s
  | .outLen => s
  | .reserved => s

/-- The state with the response to the host's access. -/
def withReply (r : HostReply) (s : State) : State := { s with reply := some r }

/-- A register write access: refused with an error response, and no state change, unless it is an aligned 32-bit
access of the window (R37). -/
def regWriteAccess (addr width : Nat) (w : Word) (s : State) : State :=
  match regAt s.platform addr width with
  | some r => withReply .ack (regWrite r w s)
  | none => withReply .refusedWrite s

/-- A register read access: refused with an error response and the word 0 unless it is an aligned 32-bit access of the
window (R37). -/
def regReadAccess (addr width : Nat) (s : State) : State :=
  match regAt s.platform addr width with
  | some r => withReply (.word (regRead s r)) s
  | none => withReply (.refusedRead 0x00000000#32) s

/-- The addresses written while a command runs, without repeats (R54). -/
def touch (a : Nat) (l : List Nat) : List Nat := if l.contains a then l else a :: l

/-- The host writes a byte of memory; while a command runs the address is remembered (R54). -/
def hostMemWrite (a : Word) (v : Byte) (s : State) : State :=
  { s with
    mem := Memory.write s.mem a.toNat v
    touched := if s.status.busy then touch a.toNat s.touched else s.touched
    reply := some .ack }

/-- Whether a host read of memory byte `a` returns an unspecified value: it lies in the destination region of the
running command (R54). -/
def hostReadOpen (a : Word) (s : State) : Bool :=
  s.status.busy && (match runningDest s with
    | some (base, len) => inRegion base len a.toNat
    | none => false)

/-- The host reads a byte of memory: a free value in the running command's destination region (R54), else the byte. -/
def hostMemRead (a : Word) (s : State) : State :=
  if hostReadOpen a s then
    { s with reply := some (.byte (Config.freeByte s.freeCount)), freeCount := s.freeCount + 1 }
  else withReply (.byte (Memory.read s.mem a.toNat)) s

/-- The reset input (R126): every piece of the block's state at its reset value, in one step, whatever the block was
doing; memory and the parameters as they were. A running command is abandoned before its step (R127). -/
def blockReset (s : State) : State :=
  { State.reset with
    mem := s.mem
    platform := s.platform
    inbox := s.inbox
    reply := s.reply
    freeCount := s.freeCount }

/-! ## Host programs -/

/-- `WR <reg>, <value>` (R70). -/
def wr (p : Platform) (r : Reg) (w : Word) : HostEvent := .regWrite (p.regBase + regOffset r) 32 w

/-- `RD <reg>` (R70). -/
def rd (p : Platform) (r : Reg) : HostEvent := .regRead (p.regBase + regOffset r) 32

/-- `WAIT`: reads of `STATUS` until `BUSY` reads 0; here `polls` of them come before the engine's step and one after
it (R70). -/
def waitPolls (p : Platform) (polls : Nat) : List HostEvent :=
  List.replicate polls (rd p .status) ++ [.engine, rd p .status]

/-- `CLEAR`: `WR STATUS, 0x0000000E` (R71). -/
def clearFlags (p : Platform) : HostEvent := wr p .status 0x0000000E#32

/-- `<cmd>`: a write of its word to `CMD` (R71). -/
def issue (p : Platform) (i : Instr) : HostEvent := wr p .cmd (encode i)

/-- `RUN <cmd>`: `<cmd>` then `WAIT` (R71). -/
def runCommand (p : Platform) (i : Instr) : List HostEvent := issue p i :: waitPolls p 0

/-- `MEM <addr>: <b0> <b1> …`: before the program runs, memory holds the bytes from `addr` upward (R70). -/
def memSetup (addr : Nat) (bs : List Byte) (m : Memory) : Memory :=
  forRange bs.length (fun i m => Memory.write m (portAddress (addr + i)) (bs.getD i 0#8)) m

end Sys2Proof.Machine
end

