-- ==== Sys2Proof/Machine/Turn.lean ====
section
/-! DEFINITION. Whose turn it is (spec/10_state.md R7): the host's next access, or the engine's step
(spec/40_control.md R74). Also how a command comes to be the next one to run. -/

namespace Sys2Proof.Machine

/-- The engine's step, enabled only while `BUSY = 1`: it reads `PEND`, decodes it and performs the command from start
to end (R74). While `BUSY = 0` the block waits for a `CMD` write (R126). -/
def engineTurn (s : State) : Host.Outcome State Fault Refusal :=
  if s.status.busy then exec (decode s.pend) s else .next s

/-- One host access, the reset input, or the engine's turn. -/
def eventTurn (e : HostEvent) (s : State) : Host.Outcome State Fault Refusal :=
  match e with
  | .engine => engineTurn s
  | .regWrite addr width w => .next (regWriteAccess addr width w s)
  | .regRead addr width => .next (regReadAccess addr width s)
  | .memWrite a v => .next (hostMemWrite a v s)
  | .memRead a => .next (hostMemRead a s)
  | .reset => .next (blockReset s)

/-- The state with `l` as the host's accesses still to come. -/
def withInbox (l : List HostEvent) (s : State) : State := { s with inbox := l }

/-- One step: the host's next access, or the engine's turn when the host has none to come, so that every accepted
command is eventually run (R131). -/
def nextTurn (s : State) : Host.Outcome State Fault Refusal :=
  match s.inbox with
  | [] => engineTurn s
  | e :: rest => eventTurn e (withInbox rest s)

/-- The state in which the very next step runs the command word `w`. The word 0 is never accepted (R73), so it is the
host's next `CMD` write; any other word is pending, just accepted with the registers' snapshot (R72), and the engine
has the turn, before the host's next access where there is one to come. -/
def placeCommand (w : Word) (s : State) : State :=
  if w = 0x00000000#32 then withInbox (wr s.platform .cmd w :: s.inbox) s
  else if s.inbox.isEmpty then acceptCommand w s
  else withInbox (.engine :: s.inbox) (acceptCommand w s)

end Sys2Proof.Machine
end

