-- ==== Sys2Proof/Safety.lean ====
section
/-! DEFINITION. What a good state and a safe run are, in the terms the claims use. -/

namespace Sys2Proof.Machine

/-! ## Invariants -/

/-- `ERRCODE` is 0 exactly when `ERR` is 0, and never one of the reserved codes 7 to 15 (R14, R118). -/
def StatusInv (s : State) : Prop :=
  (s.status.errcode = 0#4 ↔ s.status.err = false) ∧ s.status.errcode.toNat ≤ 6

/-- The memory space is in canonical form and lists no address that does not exist (R35, R36). -/
def MemoryInv (s : State) : Prop := Memory.wf s.mem = true ∧ Memory.below memorySpace s.mem = true

/-- The fields of a latch hang together as R29 says, for a plane buffer of `cap` cells. -/
structure LatchCoherent (cap : Nat) (L : Latch) : Prop where
  bytesPerPixel : L.bytesPerPixel = bytesPerPixelOf L.srcBpp
  widthPositive : 1 ≤ L.w
  heightPositive : 1 ≤ L.h
  planeWidth : L.pw = planeWidthOf L.outBpp L.w
  planeHeight : L.ph = L.h
  fits : L.pw * L.ph ≤ cap
  brightness : L.b ≤ 100
  contrast : L.c ≤ 100
  rowSize : L.rowSize.toNat = rowSizeOf L.w L.bytesPerPixel
  outLen : L.outLen.toNat = outLenOf L.outBpp L.scan L.w L.pw L.ph

/-- Every cell of the plane is at most `v`. -/
def PlaneAtMost (v : Nat) (s : State) : Prop :=
  ∀ x y, x < s.latch.pw → y < s.latch.ph → (planeGet s.plane s.latch.pw x y).toNat ≤ v

/-- The plane buffer is in canonical form and inside its capacity; while `PK ≠ EMPTY` the latch is coherent and the two
read-only registers show it; a LEVEL1 plane is a 1-bpp one with cells in `{0, 1}`, a LEVEL4 plane a 4-bpp one with cells
in `0..15` (R15, R20, R21, R29, R30, R31, R105). -/
structure PlaneInv (s : State) : Prop where
  platform : s.platform.wf = true
  canonical : Memory.wf s.plane = true
  inside : Memory.below s.platform.planeCapacity s.plane = true
  latched : s.status.pk ≠ .empty → LatchCoherent s.platform.planeCapacity s.latch
  rowSizeShown : s.status.pk ≠ .empty → s.rowSize = s.latch.rowSize
  outLenShown : s.status.pk ≠ .empty → s.outLen = s.latch.outLen
  level1 : s.status.pk = .level1 → s.latch.outBpp = .one ∧ PlaneAtMost 1 s
  level4 : s.status.pk = .level4 → s.latch.outBpp = .four ∧ PlaneAtMost 15 s

/-- A pending command is never the word 0, and while no command runs no address counts as written during one
(R54, R73, R75). -/
def PendingInv (s : State) : Prop :=
  (s.status.busy = true → s.pend ≠ 0x00000000#32) ∧ (s.status.busy = false → s.touched = [])

/-! ## Conditions of the claims -/

/-- The checks of REDUCE and CONVERT pass for the snapshot and give the latch `L` (R81, R82). -/
def ChecksPass (s : State) (L : Latch) : Prop := latchOf s.platform.planeCapacity s.snap = .ok L

/-- Every read of a source byte completes: the three bytes of every pixel of the image (R43). -/
def SourceReadable (p : Platform) (L : Latch) : Prop :=
  ∀ x y k, x < L.w → y < L.h → k < 3 → Platform.busOK p .read (portAddress (sourceAddress L x y + k)) = true

/-- Every write of a destination byte completes (R45). -/
def DestWritable (p : Platform) (L : Latch) : Prop :=
  ∀ i, i < L.outLen.toNat → Platform.busOK p .write (portAddress (destAddress L i)) = true

/-- The address is none of the destination region's (R45). -/
def OutsideDest (L : Latch) (a : Nat) : Prop := ∀ i, i < L.outLen.toNat → a ≠ portAddress (destAddress L i)

/-- The address is one of the destination region of the command that runs while `BUSY = 1`: PACK's from the latch,
CONVERT's from the latch its checks give (R45, R54). -/
def InRunningDest (s : State) (a : Nat) : Prop :=
  (decode s.pend = .pack ∧ (s.status.pk = .level1 ∨ s.status.pk = .level4)
      ∧ ∃ i, i < s.latch.outLen.toNat ∧ a = portAddress (destAddress s.latch i))
    ∨ (decode s.pend = .convert ∧ ∃ L, ChecksPass s L ∧ ∃ i, i < L.outLen.toNat ∧ a = portAddress (destAddress L i))

/-- The source region lies outside the register window (R46). -/
def SourceClear (p : Platform) (L : Latch) : Prop := overlapsWindow p L.srcBase.toNat (sourceLength L) = false

/-- The destination region lies outside the register window (R46). -/
def DestClear (p : Platform) (L : Latch) : Prop := overlapsWindow p L.dstBase.toNat L.outLen.toNat = false

/-! ## The operands' legality, in the numbers of the registers -/

/-- A configuration word is legal, in the arithmetic of its bits (R60). -/
def ConfigLegal (c : Word) : Prop :=
  (c.toNat % 16 = 1 ∨ c.toNat % 16 = 4) ∧ c.toNat / 64 % 4 ≤ 2
    ∧ (c.toNat / 65536 % 256 = 24 ∨ c.toNat / 65536 % 256 = 32)
    ∧ c.toNat / 512 % 128 = 0 ∧ c.toNat / 16777216 = 0

/-- The configuration word and the two percentages are legal (R60, R63). -/
def OperandsLegal (r : ConvRegs) : Prop :=
  ConfigLegal r.config ∧ r.brightness.toNat ≤ 100 ∧ r.contrast.toNat ≤ 100

/-- `PW` of the operands, from the numbers in `CONFIG` and `WIDTH` (R81). -/
def operandPlaneWidth (r : ConvRegs) : Int :=
  if r.config.toNat % 16 = 4 then r.width.toInt + r.width.toInt % 2 else r.width.toInt

/-- Both dimensions are at least 1 as signed words, and the plane fits (R62, R81). -/
def DimsLegal (cap : Nat) (r : ConvRegs) : Prop :=
  1 ≤ r.width.toInt ∧ 1 ≤ r.height.toInt ∧ operandPlaneWidth r * r.height.toInt ≤ (cap : Int)

/-! ## Floyd-Steinberg on a grid of integers -/

/-- A plane as a function of the coordinates. -/
abbrev Grid := Nat → Nat → Int

/-- The grid with the value at `(x, y)` replaced. -/
def gridSet (g : Grid) (x y : Nat) (v : Int) : Grid := fun i j => if i = x ∧ j = y then v else g i j

/-- `Spread(i, j, e, k)` of R95 on a grid. -/
def gridSpread (w h : Nat) (e k i j : Int) (g : Grid) : Grid :=
  if 0 ≤ i ∧ i < (w : Int) ∧ 0 ≤ j ∧ j < (h : Int) then
    gridSet g i.toNat j.toNat (max 0 (min 255 (g i.toNat j.toNat + Int.tdiv (e * k) 16)))
  else g

/-- The quantized value of R95. -/
def gridQuantize (v : Int) : Int := if 127 < v then 255 else 0

/-- One pixel of `FloydSteinberg()` of R95 on a grid. -/
def gridFloydCell (w h x y : Nat) (g : Grid) : Grid :=
  let e := g x y - gridQuantize (g x y)
  gridSpread w h e 1 (x + 1) (y + 1)
    (gridSpread w h e 5 x (y + 1)
      (gridSpread w h e 3 (x - 1) (y + 1)
        (gridSpread w h e 7 (x + 1) y (gridSet g x y (gridQuantize (g x y))))))

/-- `FloydSteinberg()` of R95 on a grid. -/
def gridFloyd (w h : Nat) (g : Grid) : Grid := forCells w h (gridFloydCell w h) g

/-- The cells of a plane buffer as a grid. -/
def gridOf (p : Memory) (pw : Nat) : Grid := fun x y => ((planeGet p pw x y).toNat : Int)

/-! ## The image before dithering and quantization -/

/-- Byte `k` of the source pixel for the output cell `(x, y)` (R43). -/
def sourceByte (m : Memory) (L : Latch) (x y k : Nat) : Nat :=
  (Memory.read m (portAddress (sourceAddress L x y + k))).toNat

/-- The luminance of the source pixel for the output cell `(x, y)`, blue at +0, green at +1, red at +2; 0 in the pad
column (R85, R87). -/
def sourceLuma (m : Memory) (L : Latch) (x y : Nat) : Nat :=
  if x < L.w then (299 * sourceByte m L x y 2 + 587 * sourceByte m L x y 1 + 114 * sourceByte m L x y 0) / 1000 else 0

/-- `Adjust(v, b, c)` in integers (R90). -/
def adjusted (v b c : Nat) : Int :=
  max 0 (min 255 (Int.fdiv ((10 * (v : Int) + 51 * ((b : Int) - 50) - 1275) * (c : Int) + 63750) 500))

/-! ## How a command ends, as a status -/

/-- `STATUS` after `finish` (R114). -/
def Status.finished (t : Status) : Status := { t with done := true, busy := false }

/-- `STATUS` after a pre-check error with this code: `ERR`, `ERRCODE` and `BUSY` only (R116). -/
def Status.failed (code : BitVec 4) (t : Status) : Status := { t with err := true, errcode := code, busy := false }

/-! ## Comparing runs -/

/-- The outcome with `f` done to its next state. -/
def mapNext (f : State → State) : Host.Outcome State Fault Refusal → Host.Outcome State Fault Refusal
  | .next t => .next (f t)
  | .fault r => .fault r
  | .refused r => .refused r

/-- The host issues a command and the engine takes its step (R72, R74). -/
def issueAndRun (i : Instr) (s : State) : Host.Outcome State Fault Refusal := exec i (cmdWrite (encode i) s)

/-- Whether a command issued in `s` ends with `DONE`: issued there with `DONE` cleared, it leaves `DONE` set
(R11, R114, R115). -/
def endsDone (i : Instr) (s : State) : Bool :=
  match issueAndRun i { s with status := { s.status with done := false } } with
  | .next t => t.status.done
  | .fault _ => false
  | .refused _ => false

/-- The host issues the commands one after another, each after the one before has ended with `DONE`, and stops at the
first that does not (R113). -/
def runStages : List Instr → State → Host.Outcome State Fault Refusal
  | [], s => .next s
  | i :: rest, s =>
    match issueAndRun i s with
    | .next t => if endsDone i s then runStages rest t else .next t
    | .fault r => .fault r
    | .refused r => .refused r

/-- The stage commands of R113 for a configuration word: REDUCE; for 1 bpp ADJUST and, with a method, DITHER; QUANTIZE;
PACK. -/
def stagesOf (c : Word) : List Instr :=
  match decodeConfig c with
  | some { outBpp := .one, dither := .none, .. } => [.reduce, .adjust, .quantize, .pack]
  | some { outBpp := .one, .. } => [.reduce, .adjust, .dither, .quantize, .pack]
  | _ => [.reduce, .quantize, .pack]

/-- The host sequence of R113 with the registers as they are. -/
def stageSequence (s : State) : Host.Outcome State Fault Refusal := runStages (stagesOf s.regs.config) s

/-- The status `u` of the sequence's end and the status `t` of CONVERT's differ in `DONE` at most, which is set in `u`
where it is in `t` (R113). -/
def Status.SameButDone (t u : Status) : Prop := u = { t with done := u.done } ∧ (t.done = true → u.done = true)

/-- Two outcomes agree on the plane, `ROW_SIZE`, `OUT_LEN` and every byte of memory, and their statuses are related by
`same`; or both stop with the same fault. -/
def SameConversion (same : Status → Status → Prop) (o o' : Host.Outcome State Fault Refusal) : Prop :=
  match o, o' with
  | .next t, .next u =>
    t.plane = u.plane ∧ t.rowSize = u.rowSize ∧ t.outLen = u.outLen ∧ t.mem = u.mem ∧ same t.status u.status
  | .fault r, .fault q => r = q
  | _, _ => False

end Sys2Proof.Machine
end

