-- ==== Sys2Proof/Certificates/Slice0/Obligations.lean ====
section
/-! DEFINITION. The statements for the provers, from the numbered rules of spec/. A statement about a state the model
chose a value for says so and names the log entry. -/

open Sys2Proof Sys2Proof.Machine

/-- The seven command words decode to the seven commands, every other word to ILLEGAL (R67, R38). The words 0 to 6
decode to NOP, CONVERT, REDUCE, ADJUST, DITHER, QUANTIZE and PACK; every other 32-bit word decodes to ILLEGAL with
that word. Any four bytes, with any bytes after them, decode to what the word decodes to whose bits 7:0 are the byte
at the lowest address, and so on up to bits 31:24, and the bytes after them are left. -/
def Obligations.CommandWordsDecode : Prop :=
  decode 0x00000000#32 = .nop ∧ decode 0x00000001#32 = .convert ∧ decode 0x00000002#32 = .reduce
    ∧ decode 0x00000003#32 = .adjust ∧ decode 0x00000004#32 = .dither ∧ decode 0x00000005#32 = .quantize
    ∧ decode 0x00000006#32 = .pack ∧ (∀ w : Word, 7 ≤ w.toNat → decode w = .illegal w)
    ∧ (∀ (b0 b1 b2 b3 : Byte) (w : Word) (rest : List Byte),
        w.toNat = b0.toNat + 256 * b1.toNat + 65536 * b2.toNat + 16777216 * b3.toNat →
        decodeBytes (b0 :: b1 :: b2 :: b3 :: rest) = .ok (decode w, rest))

/-- Decoding the bytes of any well-formed instruction gives its command back (R58, R67, R68, R75, R38). For every well-
formed instruction i and any bytes after it, decoding the encoder's bytes of i gives i.core and leaves the bytes
after it; i.core is i itself for NOP, CONVERT, REDUCE, ADJUST, DITHER, QUANTIZE, PACK and ILLEGAL (whatever illegal
word it holds), and a variant's command for the nine variant rows, which have their command's word. -/
def Obligations.DecodeEncodeAgree : Prop :=
  ∀ (i : Instr) (rest : List Byte), i.wellFormed = true →
    decodeBytes (encodeBytes i ++ rest) = .ok (i.core, rest)
      ∧ (i.core = i ∨ (i.core = .dither ∧ (i = .ditherNone ∨ i = .ditherFloyd ∨ i = .ditherOrdered))
        ∨ (i.core = .quantize ∧ (i = .quantize1 ∨ i = .quantize4))
        ∨ (i.core = .pack ∧ (i = .pack4h ∨ i = .pack4v ∨ i = .pack1h ∨ i = .pack1v)))

/-- Every 32-bit word is the encoding of the well-formed instruction it decodes to (R67, R75). For every word w, decode
w is well formed, is its own command, and encodes to w: no bit of a command word is dropped, and no two words decode
alike. -/
def Obligations.EncodeDecodeAgree : Prop :=
  ∀ w : Word, (decode w).wellFormed = true ∧ (decode w).core = decode w ∧ encode (decode w) = w

/-- A configuration word decodes to fields exactly when it is the word of those fields (R59, R60, R71). For every 32-bit
word c and fields f, decodeConfig c = some f if and only if c is encodeConfig f, the CFG word of those fields: the
two are inverse, and no other word is legal. -/
def Obligations.ConfigWordRoundTrip : Prop :=
  ∀ (c : Word) (f : ConfigFields), decodeConfig c = some f ↔ c = encodeConfig f

/-- The legality of a configuration word, and BAD_CONFIG for an illegal one (R60). A configuration word is legal exactly
when OUT_BPP is 1 or 4, DITHER is at most 2, SRC_BPP is 24 or 32 and the reserved bits are 0; a REDUCE or CONVERT
whose snapshot holds an illegal word ends with ERRCODE 2 (BAD_CONFIG) and changes nothing else of the block but ERR
and BUSY. -/
def Obligations.IllegalConfigEndsBadConfig : Prop :=
  (∀ c : Word, (decodeConfig c).isSome = true ↔ ConfigLegal c)
    ∧ ∀ (s : State) (i : Instr), i = .reduce ∨ i = .convert → ¬ ConfigLegal s.snap.config →
      exec i s = .next { s with status := s.status.failed 2#4, touched := [] }

/-- NOP changes nothing, or sets OVR while a command runs (R73). With BUSY = 0, NOP answers the same state: no register,
flag, plane cell or memory byte changes. With BUSY = 1 only OVR changes, to 1. -/
def Obligations.NopCompletes : Prop :=
  ∀ s : State,
    (s.status.busy = false → exec .nop s = .next s)
      ∧ (s.status.busy = true → exec .nop s = .next { s with status := { s.status with ovr := true } })

/-- An illegal command word ends with ILLEGAL_CMD and changes only ERR, ERRCODE and BUSY (R75, R116). For every illegal
word w (bits 31:4 not 0, or opcode 7 to 15) the decoder gives ILLEGAL, and exec of it answers the state with ERR =
1, ERRCODE = 1 and BUSY = 0: the plane, PK, L, ROW_SIZE, OUT_LEN, every register and all memory keep their values. -/
def Obligations.IllegalWordCompletes : Prop :=
  ∀ (s : State) (w : Word), (w.toNat / 16 ≠ 0 ∨ 7 ≤ w.toNat % 16) →
    decode w = .illegal w
      ∧ exec (.illegal w) s = .next { s with status := s.status.failed 1#4, touched := [] }

/-- A step in the engine's turn runs the decoded pending command (R74, R7, R131). While BUSY = 1, if the host has no
access to come, or the engine's turn comes first, the step is exec of the instruction PEND decodes to, at the same
state less that turn. While BUSY = 0 the engine has no step and the state is as it was, less the engine's turn where
the inbox holds one. A pending command placed by withFetchWord is run by the very next step, after the acceptance of
R72. The inbox is the model's own (notes/assumptions/4.md). -/
def Obligations.StepRunsPendingCommand : Prop :=
  (∀ s : State, s.status.busy = true → s.inbox = [] → step s = exec (decode s.pend) s)
    ∧ (∀ (s : State) (rest : List HostEvent), s.status.busy = true → s.inbox = .engine :: rest →
        step s = exec (decode s.pend) { s with inbox := rest })
    ∧ (∀ s : State, s.status.busy = false → s.inbox = [] → step s = .next s)
    ∧ (∀ (s : State) (rest : List HostEvent), s.status.busy = false → s.inbox = .engine :: rest →
        step s = .next { s with inbox := rest })
    ∧ (∀ (s : State) (n : Nat), n < 4294967296 → n ≠ 0 →
        step (s.withFetchWord 32 n) = exec (decode (BitVec.ofNat 32 n))
          { s with pend := BitVec.ofNat 32 n, snap := s.regs, status := { s.status with busy := true }, touched := [] })

/-- A step that takes a CMD write of the word 0 runs NOP (R72, R73). When the host's next access is a 32-bit write of 0
to CMD, the step is exec of NOP at the state less that access, with the write's acknowledgement recorded. -/
def Obligations.StepRunsNopWrite : Prop :=
  ∀ (s : State) (rest : List HostEvent), s.inbox = .regWrite s.platform.regBase 32 0x00000000#32 :: rest →
    decode 0x00000000#32 = .nop
      ∧ ∃ t, exec .nop { s with inbox := rest } = .next t ∧ step s = .next { t with reply := some .ack }

/-- What a host write of CMD does: accepted, NOP, or dropped with OVR (R72). A step that takes a 32-bit host write of w
to CMD: while BUSY = 1 only OVR is set; with BUSY = 0 and w = 0 nothing changes; otherwise PEND becomes w, S the
seven registers and BUSY 1, and DONE, ERR, ERRCODE and everything else are as before. The access leaves the inbox
and its acknowledgement is recorded (the model's fields). -/
def Obligations.CmdWriteAcceptsOrOverruns : Prop :=
  ∀ (s : State) (w : Word) (rest : List HostEvent), s.inbox = .regWrite s.platform.regBase 32 w :: rest →
    (s.status.busy = true →
        step s = .next { s with status := { s.status with ovr := true }, inbox := rest, reply := some .ack })
      ∧ (s.status.busy = false → w = 0x00000000#32 → step s = .next { s with inbox := rest, reply := some .ack })
      ∧ (s.status.busy = false → w ≠ 0x00000000#32 →
        step s = .next { s with
          pend := w, snap := s.regs, status := { s.status with busy := true }, touched := [], inbox := rest,
          reply := some .ack })

/-- The checks of REDUCE and CONVERT, their order and their errors (R81). For REDUCE and CONVERT: if the configuration
word is illegal or a percentage is above 100, the command ends with ERRCODE 2 whatever the dimensions are;
otherwise, if a dimension is below 1 as a signed word or PW × H exceeds PLANE_CAPACITY, with ERRCODE 3; nothing but
ERR, ERRCODE and BUSY changes. If neither holds the checks pass and give a latch. -/
def Obligations.CheckOrderOfReduceAndConvert : Prop :=
  ∀ (s : State) (i : Instr), i = .reduce ∨ i = .convert →
    (¬ OperandsLegal s.snap → exec i s = .next { s with status := s.status.failed 2#4, touched := [] })
      ∧ (OperandsLegal s.snap → ¬ DimsLegal s.platform.planeCapacity s.snap →
          exec i s = .next { s with status := s.status.failed 3#4, touched := [] })
      ∧ (OperandsLegal s.snap → DimsLegal s.platform.planeCapacity s.snap → ∃ L, ChecksPass s L)

/-- What the latch holds when the checks pass (R82, R29, R59, R62, R83, R104). When the checks pass for a snapshot r on
a plane buffer of at most 2^28 cells, each field of L is the field of the configuration word, the signed width and
height, the plane width and height, the percentages, the two base addresses, the row size rounded up to 4 and the
packed length of R104. -/
def Obligations.LatchHoldsSnapshotFields : Prop :=
  ∀ (cap : Nat) (r : ConvRegs) (L : Latch), cap ≤ 268435456 → latchOf cap r = .ok L →
    L.outBpp.value = r.config.toNat % 16 ∧ L.scan.value = r.config.toNat / 16 % 2
      ∧ L.order.value = r.config.toNat / 32 % 2 ∧ L.dither.value = r.config.toNat / 64 % 4
      ∧ L.invert.toNat = r.config.toNat / 256 % 2 ∧ L.srcBpp.value = r.config.toNat / 65536 % 256
      ∧ L.bytesPerPixel = r.config.toNat / 65536 % 256 / 8
      ∧ (L.w : Int) = r.width.toInt ∧ (L.h : Int) = r.height.toInt
      ∧ (L.pw : Int) = operandPlaneWidth r ∧ L.ph = L.h
      ∧ L.b = r.brightness.toNat ∧ L.c = r.contrast.toNat ∧ L.srcBase = r.srcBase ∧ L.dstBase = r.dstBase
      ∧ L.rowSize.toNat = (L.w * L.bytesPerPixel + 3) / 4 * 4
      ∧ L.outLen.toNat = outLenOf L.outBpp L.scan L.w L.pw L.ph
      ∧ LatchCoherent cap L

/-- The row size is the least multiple of 4 that holds a row (R83). RowSize(W, Bpp) is a multiple of 4, at least W × Bpp
and less than W × Bpp + 4; for W up to 2^28 and Bpp 3 or 4 it is below 2^31; and it has the spec's example values. -/
def Obligations.RowSizeIsPaddedToFour : Prop :=
  (∀ w b : Nat, rowSizeOf w b = (w * b + 3) / 4 * 4 ∧ rowSizeOf w b % 4 = 0 ∧ w * b ≤ rowSizeOf w b
      ∧ rowSizeOf w b < w * b + 4)
    ∧ (∀ w b : Nat, w ≤ 268435456 → (b = 3 ∨ b = 4) → rowSizeOf w b < 2147483648)
    ∧ rowSizeOf 1 3 = 4 ∧ rowSizeOf 4 3 = 12 ∧ rowSizeOf 5 3 = 16 ∧ rowSizeOf 3 4 = 12

/-- The packed length of the four layouts, and its bound (R104). For a coherent latch OUT_LEN is, by depth and scan,
ceil(W/2) × PH, PW × ceil(PH/2), ceil(W/8) × PH or W × ceil(PH/8), and never more than PW × PH. -/
def Obligations.OutLenCountsEveryLayout : Prop :=
  ∀ (cap : Nat) (L : Latch), LatchCoherent cap L →
    L.outLen.toNat ≤ L.pw * L.ph
      ∧ (L.outBpp = .four → L.scan = .horizontal → L.outLen.toNat = (L.w + 1) / 2 * L.ph)
      ∧ (L.outBpp = .four → L.scan = .vertical → L.outLen.toNat = L.pw * ((L.ph + 1) / 2))
      ∧ (L.outBpp = .one → L.scan = .horizontal → L.outLen.toNat = (L.w + 7) / 8 * L.ph)
      ∧ (L.outBpp = .one → L.scan = .vertical → L.outLen.toNat = L.w * ((L.ph + 7) / 8))

/-- REDUCE latches the configuration and fills the plane with luminances (R84, R85, R86, R87, R43, R54, R114). If the
checks pass with latch L, every source byte can be read and the source region is clear of the register window,
REDUCE answers the state with L latched, ROW_SIZE and OUT_LEN written, PK = LUMA8, DONE set, BUSY cleared and a new
plane, everything else (all of memory included) as before but for the model's counter of free values. In the plane,
cell (x, y) with x < W holds floor((299 R + 587 G + 114 B)/1000) of the pixel at SRC_BASE + (H−1−y) × ROW_SIZE + x ×
Bpp (mod 2^32), unless the host wrote one of its three bytes while the command ran; the pad column holds 0; places
of the buffer outside the plane are as before. That places of the buffer outside the plane keep what they held is
the model's choice (notes/assumptions/6.md; the spec leaves those cells any value). -/
def Obligations.ReduceCompletes : Prop :=
  ∀ (s : State) (L : Latch), ChecksPass s L → SourceReadable s.platform L → SourceClear s.platform L →
    Memory.wf s.plane = true →
    ∃ (p : Memory) (n : Nat),
      exec .reduce s = .next { s with
          latch := L, rowSize := L.rowSize, outLen := L.outLen, plane := p,
          status := { s.status with pk := .luma8, done := true, busy := false }, touched := [], freeCount := n }
      ∧ (∀ x y, x < L.w → y < L.h →
          (∀ k, k < 3 → s.touched.contains
              ((L.srcBase.toNat + (L.h - 1 - y) * L.rowSize.toNat + x * L.bytesPerPixel + k) % 4294967296) = false) →
          (planeGet p L.pw x y).toNat = sourceLuma s.mem L x y)
      ∧ (∀ x y, L.w ≤ x → x < L.pw → y < L.h → planeGet p L.pw x y = 0#8)
      ∧ (∀ j, L.pw * L.h ≤ j → Memory.read p j = Memory.read s.plane j)

/-- A failing source read ends REDUCE and CONVERT with BUS_READ and leaves memory untouched (R85, R112, R115, R117,
R119). If the checks pass with latch L, the source region (for CONVERT the destination region too) is clear of the
register window and some source byte cannot be read, REDUCE and CONVERT end with ERR = 1, ERRCODE = 5, PK = EMPTY
and BUSY = 0; L, ROW_SIZE and OUT_LEN are those of the new latch, DONE and OVR are as before, and no byte of memory
has changed. Only the plane's contents, which no command can read then, and the model's counter are left open. That
REDUCE alone does not look at the destination region is the model's reading of R46 (notes/assumptions/10.md). -/
def Obligations.BusReadReleasesPlane : Prop :=
  ∀ (s : State) (L : Latch) (i : Instr), i = .reduce ∨ i = .convert → ChecksPass s L → SourceClear s.platform L →
    (i = .convert → DestClear s.platform L) → ¬ SourceReadable s.platform L →
    ∃ (p : Memory) (n : Nat),
      exec i s = .next { s with
          latch := L, rowSize := L.rowSize, outLen := L.outLen, plane := p,
          status := { s.status with pk := .empty, err := true, errcode := 5#4, busy := false }, touched := [],
          freeCount := n }

/-- REDUCE depends on no byte of memory but the three source bytes of each pixel (R43, R86). If two memories agree on
the three source bytes of every pixel that the latch names, REDUCE does the same with either: the same outcome, the
same error if any, and the same next state but for the memory itself. So the alpha bytes, the row padding and every
other byte have no effect. That this takes in the plane after BUS_READ rests on the model's order of reads
(notes/assumptions/11.md). -/
def Obligations.ReduceReadsOnlySourceBytes : Prop :=
  ∀ (s : State) (m : Memory),
    (∀ L, ChecksPass s L → ∀ x y k, x < L.w → y < L.h → k < 3 →
      Memory.read m (portAddress (sourceAddress L x y + k))
        = Memory.read s.mem (portAddress (sourceAddress L x y + k))) →
    exec .reduce { s with mem := m } = mapNext (fun t => { t with mem := m }) (exec .reduce s)

/-- Luminance is the exact floor, and gray stays gray (R87, R88). Luma(R, G, B) is floor((299 R + 587 G + 114 B)/1000)
for every pixel, a gray pixel keeps its value, and the source's three vectors hold. -/
def Obligations.LumaIsExactFloor : Prop :=
  (∀ r g b : Byte, (luma r g b).toNat = (299 * r.toNat + 587 * g.toNat + 114 * b.toNat) / 1000)
    ∧ (∀ v : Byte, luma v v v = v)
    ∧ luma 255#8 255#8 255#8 = 255#8 ∧ luma 0#8 0#8 0#8 = 0#8 ∧ luma 255#8 0#8 0#8 = 76#8

/-- ADJUST replaces every cell by its adjusted value and changes nothing else (R92, R90, R114). With PK = LUMA8 and
L.OUT_BPP = 1, ADJUST answers the state with DONE set, BUSY cleared and a new plane: each cell holds min(255,
floor(N/500)), or 0 when N < 0, of its old value, with N = (10 v + 51 (b − 50) − 1275) c + 63750; places outside the
plane and everything else are as before. That places of the buffer outside the plane keep what they held is the
model's choice (notes/assumptions/6.md; the spec leaves those cells any value). -/
def Obligations.AdjustCompletes : Prop :=
  ∀ s : State, s.status.pk = .luma8 → s.latch.outBpp = .one → Memory.wf s.plane = true →
    ∃ p : Memory,
      exec .adjust s = .next { s with plane := p, status := s.status.finished, touched := [] }
      ∧ (∀ x y, x < s.latch.pw → y < s.latch.ph →
          ((planeGet p s.latch.pw x y).toNat : Int)
            = adjusted (planeGet s.plane s.latch.pw x y).toNat s.latch.b s.latch.c)
      ∧ (∀ j, s.latch.pw * s.latch.ph ≤ j → Memory.read p j = Memory.read s.plane j)

/-- The adjusted value is the truncated, once-clamped real formula, brightness before contrast (R89, R90). For every
cell value v and every brightness b and contrast c in 0..100, the adjusted value is the integer part of clamp((v +
(b − 50) × 5.1 − 127.5) × (c/50) + 127.5, 0, 255), computed in the rationals. -/
def Obligations.AdjustIsTheRealFormula : Prop :=
  ∀ (v : Byte) (b c : Nat), b ≤ 100 → c ≤ 100 →
    ((adjustValue v b c).toNat : Int)
      = ⌊max 0 (min 255 ((((v.toNat : ℚ) + ((b : ℚ) - 50) * (51 / 10)) - 255 / 2) * ((c : ℚ) / 50) + 255 / 2))⌋

/-- The special cases of the adjustment (R91). Neutral brightness and contrast change nothing; contrast 0 gives 127 for
every value and brightness; brightness 0 gives 0 and brightness 100 gives 255 at neutral contrast; contrast 100 at
neutral brightness gives clamp(trunc(2v − 127.5), 0, 255), with the four example values. -/
def Obligations.AdjustNeutralFlatAndDouble : Prop :=
  (∀ v : Byte, adjustValue v 50 50 = v) ∧ (∀ (v : Byte) (b : Nat), b ≤ 100 → adjustValue v b 0 = 127#8)
    ∧ (∀ v : Byte, adjustValue v 0 50 = 0#8) ∧ (∀ v : Byte, adjustValue v 100 50 = 255#8)
    ∧ (∀ v : Byte, ((adjustValue v 50 100).toNat : Int) = max 0 (min 255 (Int.tdiv (4 * (v.toNat : Int) - 255) 2)))
    ∧ adjustValue 127#8 50 100 = 126#8 ∧ adjustValue 128#8 50 100 = 128#8 ∧ adjustValue 100#8 50 100 = 72#8
    ∧ adjustValue 200#8 50 100 = 255#8

/-- A stage whose requirement fails ends with SEQUENCE and changes nothing else (R76). ADJUST and every DITHER row need
PK = LUMA8 and L.OUT_BPP = 1, every QUANTIZE row PK = LUMA8, every PACK row PK LEVEL1 or LEVEL4; where the
requirement fails the command answers the state with ERR = 1, ERRCODE = 4 and BUSY = 0 and nothing else of the block
changed. REDUCE and CONVERT make no such check: they never end with ERRCODE 4 unless it was there before. -/
def Obligations.StageRequirements : Prop :=
  ∀ (s : State) (i : Instr),
    (i.core = .adjust ∨ i.core = .dither → ¬ (s.status.pk = .luma8 ∧ s.latch.outBpp = .one) →
        exec i s = .next { s with status := s.status.failed 4#4, touched := [] })
      ∧ (i.core = .quantize → s.status.pk ≠ .luma8 →
        exec i s = .next { s with status := s.status.failed 4#4, touched := [] })
      ∧ (i.core = .pack → s.status.pk ≠ .level1 → s.status.pk ≠ .level4 →
        exec i s = .next { s with status := s.status.failed 4#4, touched := [] })
      ∧ (i = .reduce ∨ i = .convert → ∀ t, exec i s = .next t → t.status.errcode = 4#4 → s.status.errcode = 4#4)

/-- A variant row runs what its command's word runs (R68). For every row i and every state, exec of i is exec of i.core:
the nine variant rows have their command's word, and the latched configuration alone decides which variant it runs.
That a variant row where the latch selects another runs the selected one is the model's choice
(notes/assumptions/5.md). -/
def Obligations.VariantsRunTheirWord : Prop :=
  ∀ (i : Instr) (s : State), exec i s = exec i.core s

/-- With no method DITHER and DITHER.none change no cell and succeed (R94). With PK = LUMA8, L.OUT_BPP = 1 and L.DITHER
= 0, DITHER and DITHER.none answer the state with DONE set and BUSY cleared, the plane and everything else as
before. -/
def Obligations.DitherNoneCompletes : Prop :=
  ∀ (s : State) (i : Instr), i = .dither ∨ i = .ditherNone → s.status.pk = .luma8 → s.latch.outBpp = .one →
    s.latch.dither = .none →
    exec i s = .next { s with status := s.status.finished, touched := [] }

/-- DITHER and DITHER.floyd run the error diffusion of R95 in place on the plane (R93, R95, R114). With PK = LUMA8,
L.OUT_BPP = 1 and L.DITHER = 1, DITHER and DITHER.floyd answer the state with DONE set, BUSY cleared and a new plane
whose cells are those of the error diffusion of R95 run on the integer grid of the old cells (row by row, left to
right, 7/16, 3/16, 5/16, 1/16 truncated toward zero, each addition clamped); places outside the plane and everything
else are as before. That places of the buffer outside the plane keep what they held is the model's choice
(notes/assumptions/6.md; the spec leaves those cells any value). -/
def Obligations.FloydSteinbergCompletes : Prop :=
  ∀ (s : State) (i : Instr), i = .dither ∨ i = .ditherFloyd → s.status.pk = .luma8 → s.latch.outBpp = .one →
    s.latch.dither = .floyd → Memory.wf s.plane = true →
    ∃ p : Memory,
      exec i s = .next { s with plane := p, status := s.status.finished, touched := [] }
      ∧ (∀ x y, x < s.latch.pw → y < s.latch.ph →
          gridOf p s.latch.pw x y = gridFloyd s.latch.pw s.latch.ph (gridOf s.plane s.latch.pw) x y)
      ∧ (∀ j, s.latch.pw * s.latch.ph ≤ j → Memory.read p j = Memory.read s.plane j)

/-- After Floyd-Steinberg every cell is 0 or 255 (R96). For every plane in canonical form and every width and height,
each cell of the plane after Floyd-Steinberg is 0 or 255; on the uniform 127 plane of size 2×2 the result is 0, 255,
255, 0. -/
def Obligations.FloydSteinbergIsBinary : Prop :=
  (∀ (w h : Nat) (p : Memory), Memory.wf p = true → ∀ x y, x < w → y < h →
      planeGet (floydSteinberg w h p) w x y = 0#8 ∨ planeGet (floydSteinberg w h p) w x y = 255#8)
    ∧ floydSteinberg 2 2 [(0, 127#8), (1, 127#8), (2, 127#8), (3, 127#8)] = [(1, 255#8), (2, 255#8)]

/-- DITHER and DITHER.o8x8 threshold each cell against BAYER[y mod 8][x mod 8] (R93, R97, R114). With PK = LUMA8,
L.OUT_BPP = 1 and L.DITHER = 2, DITHER and DITHER.o8x8 answer the state with DONE set, BUSY cleared and a new plane:
each cell is 255 when its old value is strictly above the platform's matrix entry at row y mod 8 and column x mod 8,
else 0; places outside the plane and everything else are as before. That places of the buffer outside the plane keep
what they held is the model's choice (notes/assumptions/6.md; the spec leaves those cells any value). -/
def Obligations.OrderedDitherCompletes : Prop :=
  ∀ (s : State) (i : Instr), i = .dither ∨ i = .ditherOrdered → s.status.pk = .luma8 → s.latch.outBpp = .one →
    s.latch.dither = .ordered → Memory.wf s.plane = true →
    ∃ p : Memory,
      exec i s = .next { s with plane := p, status := s.status.finished, touched := [] }
      ∧ (∀ x y (h : 8 * (y % 8) + x % 8 < 64), x < s.latch.pw → y < s.latch.ph →
          planeGet p s.latch.pw x y
            = if s.platform.bayer[8 * (y % 8) + x % 8].toNat < (planeGet s.plane s.latch.pw x y).toNat then 255#8
              else 0#8)
      ∧ (∀ j, s.latch.pw * s.latch.ph ≤ j → Memory.read p j = Memory.read s.plane j)

/-- Both dithering methods leave a plane of cells 0 and 255 as it is (R100). On a plane in canonical form whose cells
are all 0 or 255, neither Floyd-Steinberg nor the ordered method changes any cell, on any platform; and the ordered
method's result depends on the value, x mod 8 and y mod 8 alone. -/
def Obligations.DithersFixBinaryPlanes : Prop :=
  (∀ (pf : Platform) (w h : Nat) (p : Memory), Memory.wf p = true →
      (∀ x y, x < w → y < h → planeGet p w x y = 0#8 ∨ planeGet p w x y = 255#8) →
      ∀ x y, x < w → y < h →
        planeGet (floydSteinberg w h p) w x y = planeGet p w x y
          ∧ planeGet (ordered pf w h p) w x y = planeGet p w x y)
    ∧ (∀ (pf : Platform) (x y x' y' : Nat) (v : Byte), x % 8 = x' % 8 → y % 8 = y' % 8 →
      orderedValue pf x y v = orderedValue pf x' y' v)

/-- QUANTIZE and its two variants reduce every cell to the latched depth (R101, R102, R103, R114). With PK = LUMA8,
QUANTIZE, QUANTIZE.1bpp and QUANTIZE.4bpp answer the state with DONE set, BUSY cleared and a new plane: for
L.OUT_BPP = 1 each cell is 1 when its old value is above 127, else 0, and PK is LEVEL1; for L.OUT_BPP = 4 each cell
is its old value divided by 16, and PK is LEVEL4. Places outside the plane and everything else are as before. That
places of the buffer outside the plane keep what they held is the model's choice (notes/assumptions/6.md; the spec
leaves those cells any value). So is that QUANTIZE.1bpp runs the 4-bpp variant where L.OUT_BPP = 4, and
QUANTIZE.4bpp the 1-bpp one where L.OUT_BPP = 1 (notes/assumptions/5.md). -/
def Obligations.QuantizeCompletes : Prop :=
  ∀ (s : State) (i : Instr), i = .quantize ∨ i = .quantize1 ∨ i = .quantize4 → s.status.pk = .luma8 →
    Memory.wf s.plane = true →
    ∃ p : Memory,
      exec i s = .next { s with
          plane := p,
          status := { s.status with
            pk := (match s.latch.outBpp with | .one => .level1 | .four => .level4), done := true, busy := false },
          touched := [] }
      ∧ (∀ x y, x < s.latch.pw → y < s.latch.ph →
          (planeGet p s.latch.pw x y).toNat = match s.latch.outBpp with
            | .one => if 127 < (planeGet s.plane s.latch.pw x y).toNat then 1 else 0
            | .four => (planeGet s.plane s.latch.pw x y).toNat / 16)
      ∧ (∀ j, s.latch.pw * s.latch.ph ≤ j → Memory.read p j = Memory.read s.plane j)

/-- PACK and its four variants store the packed bytes and release the plane (R105, R106, R45, R54, R114). With PK LEVEL1
or LEVEL4, a destination region clear of the register window and writable throughout, PACK, PACK.4bpp.h,
PACK.4bpp.v, PACK.1bpp.h and PACK.1bpp.v answer the state with PK = EMPTY, DONE set, BUSY cleared and a new memory,
the plane, the latch, every register and everything else as before but for the model's counter. For every i <
OUT_LEN the byte at the address the meaning stores to, (DST_BASE + i) mod 2^32, is byte i of the packed bytes of the
selected layout, or, where the host wrote that byte while the command ran, either that or the host's value; every
byte outside those addresses is as before. That a PACK variant where the latch selects another layout stores the
selected layout's bytes is the model's choice (notes/assumptions/5.md); that the block's or the host's value is left
to a free constant is too (notes/assumptions/8.md, notes/assumptions/9.md). -/
def Obligations.PackCompletes : Prop :=
  ∀ (s : State) (i : Instr), i = .pack ∨ i = .pack4h ∨ i = .pack4v ∨ i = .pack1h ∨ i = .pack1v →
    s.status.pk = .level1 ∨ s.status.pk = .level4 → DestClear s.platform s.latch → DestWritable s.platform s.latch →
    Memory.wf s.mem = true →
    ∃ (m : Memory) (n : Nat),
      exec i s = .next { s with
          mem := m, status := { s.status with pk := .empty, done := true, busy := false }, touched := [],
          freeCount := n }
      ∧ (∀ k, k < s.latch.outLen.toNat →
          s.touched.contains (portAddress (destAddress s.latch k)) = false →
          Memory.read m (portAddress (destAddress s.latch k))
            = (packedBytes (layoutOf s.latch.outBpp s.latch.scan) s.latch s.plane).getD k 0#8)
      ∧ (∀ k, k < s.latch.outLen.toNat →
          s.touched.contains (portAddress (destAddress s.latch k)) = true →
          Memory.read m (portAddress (destAddress s.latch k))
              = (packedBytes (layoutOf s.latch.outBpp s.latch.scan) s.latch s.plane).getD k 0#8
            ∨ Memory.read m (portAddress (destAddress s.latch k))
              = Memory.read s.mem (portAddress (destAddress s.latch k)))
      ∧ (∀ a, OutsideDest s.latch a → Memory.read m a = Memory.read s.mem a)

/-- A failing destination write ends PACK and CONVERT with BUS_WRITE and touches no byte outside the destination (R106,
R112, R115, R117). With PK LEVEL1 or LEVEL4, a destination region clear of the register window and not writable
throughout, every PACK row ends with ERR = 1, ERRCODE = 6, PK = EMPTY and BUSY = 0; every byte of memory outside the
destination region is as before (inside it nothing is claimed: the bytes are free), and so is everything else but
the model's counter. If the checks pass with latch L, every source byte can be read, both regions are clear of the
register window and the destination is not writable throughout, CONVERT ends in the same way, with L, ROW_SIZE and
OUT_LEN those of the new latch; only the plane's contents, which no command can read then, the bytes of the
destination region and the model's counter are left open. That a PACK variant where the latch selects another layout
ends so too is the model's choice (notes/assumptions/5.md). -/
def Obligations.PackBusWriteConfined : Prop :=
  (∀ (s : State) (i : Instr), i.core = .pack → s.status.pk = .level1 ∨ s.status.pk = .level4 →
    DestClear s.platform s.latch → ¬ DestWritable s.platform s.latch → Memory.wf s.mem = true →
    ∃ (m : Memory) (n : Nat),
      exec i s = .next { s with
          mem := m, status := { s.status with pk := .empty, err := true, errcode := 6#4, busy := false },
          touched := [], freeCount := n }
      ∧ (∀ a, OutsideDest s.latch a → Memory.read m a = Memory.read s.mem a))
  ∧ (∀ (s : State) (L : Latch), ChecksPass s L → SourceReadable s.platform L → SourceClear s.platform L →
    DestClear s.platform L → ¬ DestWritable s.platform L → Memory.wf s.plane = true → Memory.wf s.mem = true →
    ∃ (p m : Memory) (n : Nat),
      exec .convert s = .next { s with
          latch := L, rowSize := L.rowSize, outLen := L.outLen, plane := p, mem := m,
          status := { s.status with pk := .empty, err := true, errcode := 6#4, busy := false }, touched := [],
          freeCount := n }
      ∧ (∀ a, OutsideDest L a → Memory.read m a = Memory.read s.mem a))

/-- 4 bpp, horizontal: which pair of pixels each packed byte holds (R107). For a coherent 4-bpp horizontal latch without
invert, byte y × (PW/2) + j of the packed bytes holds the pixels (2j, y) and (2j + 1, y): the first in the high
nibble for ORDER = 0, in the low nibble for ORDER = 1; there are OUT_LEN bytes. -/
def Obligations.Pack4HBytes : Prop :=
  ∀ (cap : Nat) (L : Latch) (p : Memory), LatchCoherent cap L → L.outBpp = .four → L.scan = .horizontal →
    L.invert = false →
    (packedBytes (layoutOf L.outBpp L.scan) L p).length = L.outLen.toNat
      ∧ ∀ j y, j < L.pw / 2 → y < L.ph →
        (packedBytes (layoutOf L.outBpp L.scan) L p).getD (y * (L.pw / 2) + j) 0#8 = match L.order with
          | .little => (planeGet p L.pw (2 * j) y <<< 4) ||| planeGet p L.pw (2 * j + 1) y
          | .big => (planeGet p L.pw (2 * j + 1) y <<< 4) ||| planeGet p L.pw (2 * j) y

/-- 4 bpp, vertical: which pair of pixels each packed byte holds (R108). For a coherent 4-bpp vertical latch without
invert, byte x × ceil(PH/2) + j of the packed bytes, for every column x of the plane (the pad column included),
holds the pixels (x, 2j) and (x, 2j + 1), the second being 0 where 2j + 1 is past the last row: the first in the
high nibble for ORDER = 0, in the low nibble for ORDER = 1; there are OUT_LEN bytes. -/
def Obligations.Pack4VBytes : Prop :=
  ∀ (cap : Nat) (L : Latch) (p : Memory), LatchCoherent cap L → L.outBpp = .four → L.scan = .vertical →
    L.invert = false →
    (packedBytes (layoutOf L.outBpp L.scan) L p).length = L.outLen.toNat
      ∧ ∀ x j, x < L.pw → j < (L.ph + 1) / 2 →
        (packedBytes (layoutOf L.outBpp L.scan) L p).getD (x * ((L.ph + 1) / 2) + j) 0#8 =
          (let second := if 2 * j + 1 < L.ph then planeGet p L.pw x (2 * j + 1) else 0#8
           match L.order with
            | .little => (planeGet p L.pw x (2 * j) <<< 4) ||| second
            | .big => (second <<< 4) ||| planeGet p L.pw x (2 * j))

/-- 1 bpp, horizontal: which pixel each bit of a packed byte holds (R109). For a coherent 1-bpp horizontal latch without
invert, in byte y × ceil(W/8) + j of the packed bytes, the bit for offset off < 8 (bit 7 − off for ORDER = 0, bit
off for ORDER = 1) is 1 exactly when pixel (8j + off, y) lies in the row and is 1; there are OUT_LEN bytes. -/
def Obligations.Pack1HBits : Prop :=
  ∀ (cap : Nat) (L : Latch) (p : Memory), LatchCoherent cap L → L.outBpp = .one → L.scan = .horizontal →
    L.invert = false →
    (packedBytes (layoutOf L.outBpp L.scan) L p).length = L.outLen.toNat
      ∧ ∀ j y off, j < (L.w + 7) / 8 → y < L.ph → off < 8 →
        (((packedBytes (layoutOf L.outBpp L.scan) L p).getD (y * ((L.w + 7) / 8) + j) 0#8).getLsbD
            (match L.order with | .little => 7 - off | .big => off) = true
          ↔ 8 * j + off < L.w ∧ planeGet p L.pw (8 * j + off) y = 1#8)

/-- 1 bpp, vertical: which pixel each bit of a packed byte holds, mirrored (R110). For a coherent 1-bpp vertical latch
without invert, in byte x × ceil(PH/8) + j of the packed bytes, the bit for offset off < 8 (bit off for ORDER = 0,
bit 7 − off for ORDER = 1) is 1 exactly when pixel (x, 8j + off) lies in the column and is 1; there are OUT_LEN
bytes. -/
def Obligations.Pack1VBits : Prop :=
  ∀ (cap : Nat) (L : Latch) (p : Memory), LatchCoherent cap L → L.outBpp = .one → L.scan = .vertical →
    L.invert = false →
    (packedBytes (layoutOf L.outBpp L.scan) L p).length = L.outLen.toNat
      ∧ ∀ x j off, x < L.w → j < (L.ph + 7) / 8 → off < 8 →
        (((packedBytes (layoutOf L.outBpp L.scan) L p).getD (x * ((L.ph + 7) / 8) + j) 0#8).getLsbD
            (match L.order with | .little => off | .big => 7 - off) = true
          ↔ 8 * j + off < L.ph ∧ planeGet p L.pw x (8 * j + off) = 1#8)

/-- Invert complements every packed byte, pads included, and twice gives the byte back (R111). For each of the four
layouts, every latch and every plane, byte i < OUT_LEN with invert is byte i without it XOR 0xFF, so each nibble n
becomes 15 − n, and complementing again gives the byte back. -/
def Obligations.InvertComplementsEveryByte : Prop :=
  ∀ (ob : OutBpp) (sc : Scan) (L : Latch) (p : Memory) (i : Nat), i < L.outLen.toNat →
    (let plain := (packedBytes (layoutOf ob sc) { L with invert := false } p).getD i 0#8
     let inverted := (packedBytes (layoutOf ob sc) { L with invert := true } p).getD i 0#8
     inverted = plain ^^^ 0xFF#8 ∧ inverted ^^^ 0xFF#8 = plain
      ∧ inverted.toNat % 16 = 15 - plain.toNat % 16 ∧ inverted.toNat / 16 = 15 - plain.toNat / 16)

/-- CONVERT runs the whole pipeline and stores the packed image (R112, R114, R45, R54, R85, R90, R95, R97, R102, R103).
If the checks pass with latch L, the source can be read, the destination written and neither region overlaps the
register window, CONVERT answers the state with L latched, ROW_SIZE and OUT_LEN written, PK = EMPTY, DONE set, BUSY
cleared, a new plane and a new memory, everything else as before but for the model's counter. There are bytes v, one
for each cell: the luminance of the pixel unless the host wrote one of its three bytes while the command ran (then
any byte), and 0 in the pad column. The plane's cells are: for 4 bpp v divided by 16; for 1 bpp the threshold of the
adjusted v, dithered by the latched method. The byte at (DST_BASE + k) mod 2^32, k < OUT_LEN, is byte k of the
packed bytes of that plane, or, where the host wrote that byte while the command ran, either that or the host's
value; every other byte of memory is as before. What the host wrote while the command ran is the list touched, the
model's own (notes/assumptions/8.md, notes/assumptions/9.md). -/
def Obligations.ConvertCompletes : Prop :=
  ∀ (s : State) (L : Latch), ChecksPass s L → SourceReadable s.platform L → SourceClear s.platform L →
    DestWritable s.platform L → DestClear s.platform L → Memory.wf s.plane = true → Memory.wf s.mem = true →
    ∃ (v : Nat → Nat → Byte) (p m : Memory) (n : Nat),
      exec .convert s = .next { s with
          latch := L, rowSize := L.rowSize, outLen := L.outLen, plane := p, mem := m,
          status := { s.status with pk := .empty, done := true, busy := false }, touched := [], freeCount := n }
      ∧ (∀ x y, x < L.w → y < L.h →
          (∀ k, k < 3 → s.touched.contains (portAddress (sourceAddress L x y + k)) = false) →
          (v x y).toNat = sourceLuma s.mem L x y)
      ∧ (∀ x y, L.w ≤ x → x < L.pw → y < L.h → v x y = 0#8)
      ∧ (∀ x y, x < L.pw → y < L.ph →
          ((planeGet p L.pw x y).toNat : Int) = match L.outBpp, L.dither with
            | .four, _ => ((v x y).toNat : Int) / 16
            | .one, .none => if 127 < adjusted (v x y).toNat L.b L.c then 1 else 0
            | .one, .floyd =>
              if 127 < gridFloyd L.pw L.ph (fun x y => adjusted (v x y).toNat L.b L.c) x y then 1 else 0
            | .one, .ordered =>
              if (bayerAt s.platform x y : Int) < adjusted (v x y).toNat L.b L.c then 1 else 0)
      ∧ (∀ k, k < L.outLen.toNat → s.touched.contains (portAddress (destAddress L k)) = false →
          Memory.read m (portAddress (destAddress L k)) = (packedBytes (layoutOf L.outBpp L.scan) L p).getD k 0#8)
      ∧ (∀ k, k < L.outLen.toNat → s.touched.contains (portAddress (destAddress L k)) = true →
          Memory.read m (portAddress (destAddress L k)) = (packedBytes (layoutOf L.outBpp L.scan) L p).getD k 0#8
            ∨ Memory.read m (portAddress (destAddress L k)) = Memory.read s.mem (portAddress (destAddress L k)))
      ∧ (∀ a, OutsideDest L a → Memory.read m a = Memory.read s.mem a)

/-- CONVERT gives what the stage commands give one after another (R113, R46). From every state with BUSY = 0, issuing
CONVERT and running it, and issuing REDUCE, for 1 bpp ADJUST and with a method DITHER, QUANTIZE and PACK, each run
before the next is issued and the next issued only where the one before ended with DONE, agree on the plane, PK,
ROW_SIZE, OUT_LEN, every byte of memory, BUSY, ERR, ERRCODE and OVR, and DONE is 1 after the sequence where it is 1
after CONVERT (a stage before a failing PACK may have set it). A sticky DONE or ERR from before does not matter.
This is for registers whose destination region is clear of the register window; where it is not, CONVERT stops, and
the sequence stops too or ends with BUS_READ before PACK. The model's choices in it: what happens where a region
overlaps the window (notes/assumptions/10.md), the plane after BUS_READ (notes/assumptions/11.md), and that both
runs draw the same free bytes from the same counter (notes/assumptions/8.md). -/
def Obligations.ConvertEqualsStageSequence : Prop :=
  ∀ s : State, s.status.busy = false →
    ((∀ L, latchOf s.platform.planeCapacity s.regs = .ok L → DestClear s.platform L) →
      SameConversion Status.SameButDone (issueAndRun .convert s) (stageSequence s))
    ∧ (∀ L, latchOf s.platform.planeCapacity s.regs = .ok L → ¬ DestClear s.platform L →
      issueAndRun .convert s = .fault .regionOverlapsWindow
        ∧ (stageSequence s = .fault .regionOverlapsWindow
          ∨ ∃ t, stageSequence s = .next t ∧ t.status.err = true ∧ t.status.errcode = 5#4 ∧ t.mem = s.mem))

/-- At 4 bpp the dithering field, brightness and contrast do not change the output (R61). If a snapshot's configuration
is legal with OUT_BPP = 4 and its percentages are legal, then CONVERT with any other legal brightness, contrast and
dithering field gives the same plane, ROW_SIZE, OUT_LEN, memory and the same whole STATUS (BUSY, DONE, ERR, OVR,
ERRCODE and PK), or stops alike; an illegal one still ends with BAD_CONFIG. That memory is the same after BUS_WRITE
rests on both runs drawing the same free bytes from the same counter (notes/assumptions/8.md), and the plane after
BUS_READ on the model's order of reads (notes/assumptions/11.md). -/
def Obligations.FourBppIgnoresToneControls : Prop :=
  ∀ (s : State) (f : ConfigFields) (d : DitherMethod) (b c : Word), decodeConfig s.snap.config = some f →
    f.outBpp = .four → s.snap.brightness.toNat ≤ 100 → s.snap.contrast.toNat ≤ 100 →
    (b.toNat ≤ 100 → c.toNat ≤ 100 →
      SameConversion (fun t u => t = u)
        (exec .convert { s with
          snap := { s.snap with config := encodeConfig { f with dither := d }, brightness := b, contrast := c } })
        (exec .convert s))
    ∧ (100 < b.toNat ∨ 100 < c.toNat →
      exec .convert { s with snap := { s.snap with brightness := b, contrast := c } }
        = .next { s with
            snap := { s.snap with brightness := b, contrast := c }, status := s.status.failed 2#4, touched := [] })
    ∧ (∀ v : Word, v.toNat / 64 % 4 = 3 →
      exec .convert { s with snap := { s.snap with config := v } }
        = .next { s with snap := { s.snap with config := v }, status := s.status.failed 2#4, touched := [] })

/-- CONVERT does not depend on the plane or the plane kind it finds (R112, R76). With two planes in canonical form and
any two plane kinds, CONVERT from the same state otherwise gives the same memory, ROW_SIZE, OUT_LEN, BUSY, DONE,
ERR, ERRCODE and OVR whenever it answers a next state, provided the checks pass. That memory is the same after
BUS_WRITE rests on both runs drawing the same free bytes from the same counter (notes/assumptions/8.md). -/
def Obligations.ConvertDiscardsOldPlane : Prop :=
  ∀ (s t u : State) (L : Latch) (p : Memory) (k : PlaneKind), ChecksPass s L → Memory.wf s.plane = true →
    Memory.wf p = true → exec .convert s = .next t →
    exec .convert { s with plane := p, status := { s.status with pk := k } } = .next u →
    t.mem = u.mem ∧ t.rowSize = u.rowSize ∧ t.outLen = u.outLen ∧ t.status = u.status ∧ t.latch = u.latch

/-- Every command but NOP ends with BUSY = 0, and with DONE or with ERR and a code from 1 to 6 (R74, R114, R115, R118,
R121). For every row but NOP, if exec answers a next state then BUSY is 0 there, OVR is as before, and either DONE
is 1 and ERR and ERRCODE are as before, or ERR is 1, ERRCODE is from 1 to 6 and DONE is as before. -/
def Obligations.CommandsEndDoneOrError : Prop :=
  ∀ (i : Instr) (s t : State), i ≠ .nop → exec i s = .next t →
    t.status.busy = false ∧ t.status.ovr = s.status.ovr
      ∧ ((t.status.done = true ∧ t.status.err = s.status.err ∧ t.status.errcode = s.status.errcode)
        ∨ (t.status.err = true ∧ 1 ≤ t.status.errcode.toNat ∧ t.status.errcode.toNat ≤ 6
          ∧ t.status.done = s.status.done))

/-- After a pre-check error only ERR, ERRCODE and BUSY have changed (R116). For every row and every state: if exec
answers a next state that shows an error end (ERR was 0 and is 1, or the row is not NOP and DONE was 0 and still is)
with ERRCODE from 1 to 4, that state is the old one with ERR, ERRCODE and BUSY changed: the plane, PK, L, ROW_SIZE,
OUT_LEN, every register and all memory have the values they had (and the model's list of touched addresses is
empty). -/
def Obligations.PrecheckErrorsChangeOnlyStatus : Prop :=
  ∀ (i : Instr) (s t : State), exec i s = .next t →
    ((s.status.err = false ∧ t.status.err = true) ∨ (i ≠ .nop ∧ s.status.done = false ∧ t.status.done = false)) →
    t.status.errcode.toNat ≤ 4 →
    t = { s with
      status := { s.status with err := true, errcode := t.status.errcode, busy := false }, touched := [] }

/-- A step is never refused, and faults only where the running command's region overlaps the register window (R46). No
step is refused. A step that faults is the engine's, with the one fault there is, and the decoded command is
CONVERT, REDUCE or PACK whose source or destination region overlaps the register window, where the spec defines
nothing. The other way about, where the checks pass REDUCE stops if its source region overlaps the window and
CONVERT if either region does, however its source reads would end; every PACK row that finds PK LEVEL1 or LEVEL4
stops if its destination region does. Which command looks at which region is the model's reading of R46
(notes/assumptions/10.md). -/
def Obligations.StepStopsOnlyOnWindowOverlap : Prop :=
  (∀ (s : State) (q : Refusal), step s ≠ .refused q)
    ∧ (∀ (s : State) (r : Fault), step s = .fault r →
      s.status.busy = true ∧ r = .regionOverlapsWindow
        ∧ ((decode s.pend = .reduce ∧ ∃ L, ChecksPass s L ∧ ¬ SourceClear s.platform L)
          ∨ (decode s.pend = .convert
            ∧ ∃ L, ChecksPass s L ∧ (¬ SourceClear s.platform L ∨ ¬ DestClear s.platform L))
          ∨ (decode s.pend = .pack ∧ (s.status.pk = .level1 ∨ s.status.pk = .level4)
            ∧ ¬ DestClear s.platform s.latch)))
    ∧ (∀ (s : State) (L : Latch), ChecksPass s L → ¬ SourceClear s.platform L →
      exec .reduce s = .fault .regionOverlapsWindow)
    ∧ (∀ (s : State) (L : Latch), ChecksPass s L → ¬ SourceClear s.platform L ∨ ¬ DestClear s.platform L →
      exec .convert s = .fault .regionOverlapsWindow)
    ∧ (∀ (s : State) (i : Instr), i.core = .pack → s.status.pk = .level1 ∨ s.status.pk = .level4 →
      ¬ DestClear s.platform s.latch → exec i s = .fault .regionOverlapsWindow)

/-- STATUS as a word: the place of each field, and the reserved bits read 0 (R9). For every status the word the host
reads has BUSY in bit 0, DONE in bit 1, ERR in bit 2, OVR in bit 3, ERRCODE in bits 7:4 and PK (0 EMPTY, 1 LUMA8, 2
LEVEL1, 3 LEVEL4) in bits 9:8, and bits 31:10 are 0. -/
def Obligations.StatusWordLayout : Prop :=
  ∀ t : Status,
    (statusWord t).getLsbD 0 = t.busy ∧ (statusWord t).getLsbD 1 = t.done ∧ (statusWord t).getLsbD 2 = t.err
      ∧ (statusWord t).getLsbD 3 = t.ovr ∧ (statusWord t).extractLsb' 4 4 = t.errcode
      ∧ ((statusWord t).extractLsb' 8 2).toNat
          = (match t.pk with | .empty => 0 | .luma8 => 1 | .level1 => 2 | .level4 => 3)
      ∧ (statusWord t).extractLsb' 10 22 = 0#22

/-- A host write of STATUS clears DONE, ERR with ERRCODE, and OVR, each by its own bit (R78). A step that takes a 32-bit
host write of w to STATUS clears DONE when bit 1 of w is 1, ERR and ERRCODE when bit 2 is, OVR when bit 3 is, and
leaves each otherwise; BUSY and PK are never written, and nothing else of the block changes. -/
def Obligations.StatusWriteClearsFlags : Prop :=
  ∀ (s : State) (w : Word) (rest : List HostEvent), s.inbox = .regWrite (s.platform.regBase + 4) 32 w :: rest →
    step s = .next { s with
      status := {
        busy := s.status.busy
        done := s.status.done && !w.getLsbD 1
        err := s.status.err && !w.getLsbD 2
        ovr := s.status.ovr && !w.getLsbD 3
        errcode := if w.getLsbD 2 = true then 0#4 else s.status.errcode
        pk := s.status.pk }
      inbox := rest
      reply := some .ack }

/-- The interrupt output is the OR of the three enabled flags (R33). irq is 1 exactly when DONE and DONE_IE (bit 0 of
INTEN), or ERR and ERR_IE (bit 1), or OVR and OVR_IE (bit 2) are 1; a host write of INTEN stores bits 2:0 and reads
back with the other bits 0. -/
def Obligations.IrqIsTheMaskedOr : Prop :=
  (∀ s : State, irq s = true ↔
      (s.status.done = true ∧ s.inten.getLsbD 0 = true) ∨ (s.status.err = true ∧ s.inten.getLsbD 1 = true)
        ∨ (s.status.ovr = true ∧ s.inten.getLsbD 2 = true))
    ∧ (∀ (s : State) (w : Word) (rest : List HostEvent), s.inbox = .regWrite (s.platform.regBase + 8) 32 w :: rest →
      step s = .next { s with inten := w.extractLsb' 0 3, inbox := rest, reply := some .ack })
    ∧ (∀ (w : Word), (intenWord (intenAfterWrite w)).toNat = w.toNat % 8)

/-- What each register of the window reads as, without a side effect (R8, R9, R16, R17, R20, R21, R22, R37, R39). A step
that takes a 32-bit host read of slot k of the window answers the slot's word (CMD and the four reserved slots 0,
STATUS, INTEN, the seven conversion registers as last written, ROW_SIZE, OUT_LEN) and changes nothing else. -/
def Obligations.RegisterReadsHaveNoSideEffect : Prop :=
  ∀ (s : State) (k : Nat) (rest : List HostEvent), k < 16 → s.inbox = .regRead (s.platform.regBase + 4 * k) 32 :: rest →
    step s = .next { s with
      inbox := rest
      reply := some (.word ([0x00000000#32, statusWord s.status, intenWord s.inten, s.regs.config, s.regs.width,
        s.regs.height, s.regs.brightness, s.regs.contrast, s.regs.srcBase, s.regs.dstBase, s.rowSize,
        s.outLen].getD k 0x00000000#32)) }

/-- The conversion registers store every bit written; the read-only and reserved slots ignore writes (R17, R20, R21,
R22). A step that takes a 32-bit host write to CONFIG, WIDTH, HEIGHT, BRIGHTNESS, CONTRAST, SRC_BASE or DST_BASE
stores the whole word there, also while BUSY = 1, and nothing else of the block changes (the snapshot and the latch
included); a write to ROW_SIZE, OUT_LEN or a reserved slot changes nothing. -/
def Obligations.ConversionRegistersStoreWrites : Prop :=
  ∀ (s : State) (k : Nat) (w : Word) (rest : List HostEvent), 3 ≤ k → k < 16 →
    s.inbox = .regWrite (s.platform.regBase + 4 * k) 32 w :: rest →
    step s = .next { s with
      regs := {
        config := if k = 3 then w else s.regs.config
        width := if k = 4 then w else s.regs.width
        height := if k = 5 then w else s.regs.height
        brightness := if k = 6 then w else s.regs.brightness
        contrast := if k = 7 then w else s.regs.contrast
        srcBase := if k = 8 then w else s.regs.srcBase
        dstBase := if k = 9 then w else s.regs.dstBase }
      inbox := rest
      reply := some .ack }

/-- An access that is no aligned 32-bit word of the window is refused with an error response (R37). A register access
whose width is not 32 or whose address is none of REG_BASE + 4k, k < 16, changes no state: a write gets the error
response, a read the error response and the word 0. -/
def Obligations.RefusedAccessesChangeNothing : Prop :=
  ∀ (s : State) (addr width : Nat) (w : Word) (rest : List HostEvent),
    ¬ (width = 32 ∧ ∃ k, k < 16 ∧ addr = s.platform.regBase + 4 * k) →
    (s.inbox = .regWrite addr width w :: rest →
        step s = .next { s with inbox := rest, reply := some .refusedWrite })
      ∧ (s.inbox = .regRead addr width :: rest →
        step s = .next { s with inbox := rest, reply := some (.refusedRead 0x00000000#32) })

/-- The host's own accesses to memory (R46, R52, R54, R57). A step that takes a host write of v to byte a leaves v at a
and every other byte as before, and changes nothing of the block (PEND, S, L, the plane, every register, STATUS);
the model's list touched then holds what it held, and a as well where BUSY = 1. A host read answers the byte and
changes nothing, with BUSY = 0 at every address and with BUSY = 1 at every address outside the destination region of
the running command; inside that region it answers some byte and changes nothing but the reply and the model's
counter. That the host's own accesses complete whatever BusOK says is the model's reading (notes/assumptions/16.md),
and touched and the counter are its own fields (notes/assumptions/8.md, notes/assumptions/9.md). -/
def Obligations.HostMemoryAccesses : Prop :=
  ∀ (s : State) (a : Word) (rest : List HostEvent), Memory.wf s.mem = true →
    (∀ v : Byte, s.inbox = .memWrite a v :: rest →
        ∃ (m : Memory) (l : List Nat),
          step s = .next { s with mem := m, touched := l, inbox := rest, reply := some .ack }
          ∧ (∀ a' : Nat, Memory.read m a' = if a' = a.toNat then v else Memory.read s.mem a')
          ∧ (∀ a' : Nat, l.contains a' = true ↔
              s.touched.contains a' = true ∨ (s.status.busy = true ∧ a' = a.toNat)))
      ∧ (s.inbox = .memRead a :: rest → s.status.busy = false ∨ ¬ InRunningDest s a.toNat →
        step s = .next { s with inbox := rest, reply := some (.byte (Memory.read s.mem a.toNat)) })
      ∧ (s.inbox = .memRead a :: rest → s.status.busy = true → InRunningDest s a.toNat →
        ∃ (v : Byte) (n : Nat), step s = .next { s with inbox := rest, reply := some (.byte v), freeCount := n })

/-- No host access clears BUSY or writes PK, the plane, the latch, ROW_SIZE, OUT_LEN or the pending command (R10, R15,
R122). Across every host access but the reset input: PK, the plane, L, ROW_SIZE, OUT_LEN and the platform are
unchanged; while a command runs, BUSY stays 1 and PEND and S are unchanged. -/
def Obligations.HostAccessesCannotStopACommand : Prop :=
  ∀ (s t : State) (e : HostEvent) (rest : List HostEvent), s.inbox = e :: rest → e ≠ .engine → e ≠ .reset →
    step s = .next t →
    t.status.pk = s.status.pk ∧ t.plane = s.plane ∧ t.latch = s.latch ∧ t.rowSize = s.rowSize ∧ t.outLen = s.outLen
      ∧ t.platform = s.platform
      ∧ (s.status.busy = true → t.status.busy = true ∧ t.pend = s.pend ∧ t.snap = s.snap)

/-- A command does not depend on the conversion registers, only on its snapshot and the latch (R17, R28, R130). For
every row and any other values r of the seven conversion registers, exec with r in them does exactly what exec does
without, with r still in them: a register write during a command or between the stages affects neither. -/
def Obligations.RegisterWritesDoNotReachCommands : Prop :=
  ∀ (i : Instr) (s : State) (r : ConvRegs),
    exec i { s with regs := r } = mapNext (fun t => { t with regs := r }) (exec i s)

/-- The values the spec gives for reset (R34, R126). In State.reset CONFIG, WIDTH, HEIGHT, SRC_BASE, DST_BASE, INTEN,
ROW_SIZE and OUT_LEN are 0, BRIGHTNESS and CONTRAST 0x32, STATUS reads 0 with PK EMPTY, irq is 0, and the reset
configuration is illegal. -/
def Obligations.ResetStateValues : Prop :=
  State.reset.regs = ⟨0x00000000#32, 0x00000000#32, 0x00000000#32, 0x00000032#32, 0x00000032#32, 0x00000000#32,
      0x00000000#32⟩
    ∧ State.reset.inten = 0#3 ∧ State.reset.rowSize = 0x00000000#32 ∧ State.reset.outLen = 0x00000000#32
    ∧ statusWord State.reset.status = 0x00000000#32 ∧ State.reset.status.pk = .empty ∧ irq State.reset = false
    ∧ ¬ ConfigLegal State.reset.regs.config

/-- The reset input gives every register its reset value and leaves memory and the parameters alone (R126, R127, R34). A
step that takes the reset input, whatever the block was doing, leaves the conversion registers, INTEN, STATUS,
ROW_SIZE and OUT_LEN at their reset values, so that no command runs any more, and changes neither memory nor the
platform's parameters. -/
def Obligations.ResetInputRestoresRegisters : Prop :=
  ∀ (s t : State) (rest : List HostEvent), s.inbox = .reset :: rest → step s = .next t →
    t.regs = State.reset.regs ∧ t.inten = 0#3 ∧ statusWord t.status = 0x00000000#32 ∧ t.status.pk = .empty
      ∧ t.rowSize = 0x00000000#32 ∧ t.outLen = 0x00000000#32 ∧ irq t = false ∧ t.mem = s.mem
      ∧ t.platform = s.platform ∧ t.inbox = rest

/-- The four invariants hold in the reset state (R34, R14, R30, R31). State.reset meets the status invariant, the memory
invariant, the plane invariant and the pending-command invariant. Its platform and the contents of PEND, S, L and P
are the model's choices (notes/assumptions/1.md, notes/assumptions/3.md). -/
def Obligations.InvariantsHoldAtReset : Prop :=
  StatusInv State.reset ∧ MemoryInv State.reset ∧ PlaneInv State.reset ∧ PendingInv State.reset

/-- ERRCODE is 0 exactly when ERR is 0, after every step (R14, R118). If ERRCODE is 0 exactly when ERR is 0 and ERRCODE
is at most 6, the same holds after any step. -/
def Obligations.StepKeepsErrorCodeRule : Prop :=
  ∀ s t : State, StatusInv s → step s = .next t → StatusInv t

/-- Every step keeps memory in canonical form inside the 2^32 bytes (R35, R36). If memory is in canonical form and lists
no address of 2^32 or more, the same holds after any step: no address computation leaves the memory space. -/
def Obligations.StepKeepsMemoryCanonical : Prop :=
  ∀ s t : State, MemoryInv s → step s = .next t → MemoryInv t

/-- Every step keeps the plane, its kind and the latch consistent (R15, R20, R21, R29, R30, R31, R105). If the plane
buffer is canonical and inside its capacity, and while PK is not EMPTY the latch is coherent, ROW_SIZE and OUT_LEN
show it, a LEVEL1 plane has OUT_BPP = 1 and cells in 0..1 and a LEVEL4 plane OUT_BPP = 4 and cells in 0..15, then
the same holds after any step. -/
def Obligations.StepKeepsPlaneConsistent : Prop :=
  ∀ s t : State, PlaneInv s → step s = .next t → PlaneInv t

/-- Every step keeps the parameters, and the word 0 is never pending (R26, R73, R75). No step changes the platform's
parameters (REG_BASE, PLANE_CAPACITY, BusOK, BAYER); and if a pending command is not the word 0 and no address
counts as touched while no command runs, the same holds after any step. R26 says so of BAYER; that the other
parameters are constant data of the state is the model's reading (notes/assumptions/7.md), and the list of touched
addresses is its own (notes/assumptions/9.md). -/
def Obligations.StepKeepsParametersAndPending : Prop :=
  ∀ s t : State, step s = .next t → t.platform = s.platform ∧ (PendingInv s → PendingInv t)

/-- Once the host's accesses are used up, the running command has ended (R131, R74). From every state in which a pending
command is not the word 0, if the machine takes one step for each host access to come and one more without stopping,
then BUSY is 0: the engine's step of the last accepted command has been taken. The bound of one step for each access
and one more rests on the model's rule that an empty inbox gives the engine its turn (notes/assumptions/4.md); R131
says only that the step is taken eventually. -/
def Obligations.EveryAcceptedCommandEnds : Prop :=
  ∀ s t : State, PendingInv s → Host.Core.run Sys2Proof.core (s.inbox.length + 1) s = .next t →
    t.status.busy = false
end

