-- ==== Sys2Proof/Laws/HostPort.lean ====
section
/-! SUPPORT. Small lemmas about words and about the host's port: the fields of a word as numbers, which register an
access reaches, and what a `CMD` write can do. -/

namespace Sys2Proof.Machine

/-- A word put together from its own four bytes is the word. -/
theorem wordOfBytes_self (w : Word) :
    wordOfBytes (w.extractLsb' 0 8) (w.extractLsb' 8 8) (w.extractLsb' 16 8) (w.extractLsb' 24 8) = w := by
  unfold wordOfBytes
  ext i hi
  simp only [BitVec.getElem_append, BitVec.getElem_extractLsb']
  repeat' split
  all_goals (rw [← BitVec.getLsbD_eq_getElem]; congr 1; omega)

/-- The condition of the ILLEGAL row in numbers. -/
theorem illegalWord_iff (w : Word) : illegalWord w = true ↔ w.toNat / 16 ≠ 0 ∨ 7 ≤ w.toNat % 16 := by
  have high : (w.extractLsb' 4 28).toNat = w.toNat / 16 := by
    simp only [BitVec.extractLsb'_toNat, Nat.shiftRight_eq_div_pow]; omega
  have low : (w.extractLsb' 0 4).toNat = w.toNat % 16 := by simp [BitVec.extractLsb'_toNat]
  unfold illegalWord
  rw [low]
  simp only [Bool.or_eq_true, bne_iff_ne, decide_eq_true_eq, ne_eq, ← BitVec.toNat_inj, high]
  simp

/-- The many-bit fields of a configuration word as numbers. -/
theorem config_fields (c : Word) :
    (c.extractLsb' 0 4).toNat = c.toNat % 16 ∧ (c.extractLsb' 6 2).toNat = c.toNat / 64 % 4
      ∧ (c.extractLsb' 16 8).toNat = c.toNat / 65536 % 256 ∧ (c.extractLsb' 9 7).toNat = c.toNat / 512 % 128
      ∧ (c.extractLsb' 24 8).toNat = c.toNat / 16777216 := by
  have := c.isLt
  refine ⟨?_, ?_, ?_, ?_, ?_⟩ <;> simp only [BitVec.extractLsb'_toNat, Nat.shiftRight_eq_div_pow] <;> omega

/-- The one-bit fields of a configuration word as numbers. -/
theorem config_bits (c : Word) :
    c.getLsbD 4 = decide (c.toNat / 16 % 2 = 1) ∧ c.getLsbD 5 = decide (c.toNat / 32 % 2 = 1)
      ∧ c.getLsbD 8 = decide (c.toNat / 256 % 2 = 1) := by
  simp [BitVec.getLsbD, Nat.testBit_eq_decide_div_mod_eq]

/-- A 32-bit access at a slot of the window reaches the slot's register. -/
theorem regAt_slot (p : Platform) {k : Nat} (hk : k < 16) : regAt p (p.regBase + 4 * k) 32 = some (regOfSlot k) := by
  have h : (p.regBase + 4 * k - p.regBase) / 4 = k := by omega
  unfold regAt windowSize
  rw [if_pos (by omega), h]

/-- Every other access reaches no register. -/
theorem regAt_none (p : Platform) {addr width : Nat} (h : ¬ (width = 32 ∧ ∃ k, k < 16 ∧ addr = p.regBase + 4 * k)) :
    regAt p addr width = none := by
  unfold regAt windowSize
  rw [if_neg]
  rintro ⟨hw, hlo, hhi, hmod⟩
  exact h ⟨hw, (addr - p.regBase) / 4, by omega, by omega⟩

/-- What a write of `CMD` can do. -/
theorem cmdWrite_cases (w : Word) (s : State) :
    (s.status.busy = true ∧ cmdWrite w s = { s with status := { s.status with ovr := true } })
      ∨ (s.status.busy = false ∧ w = 0x00000000#32 ∧ cmdWrite w s = s)
      ∨ (s.status.busy = false ∧ w ≠ 0x00000000#32 ∧ cmdWrite w s = acceptCommand w s) := by
  unfold cmdWrite
  cases hb : s.status.busy with
  | true => exact .inl ⟨rfl, rfl⟩
  | false =>
    by_cases hw : w = 0x00000000#32
    · exact .inr (.inl ⟨rfl, hw, by simp [hw]⟩)
    · exact .inr (.inr ⟨rfl, hw, by simp [hw]⟩)

end Sys2Proof.Machine
end

