-- ==== Sys2Proof/Laws/Memory.lean ====
section
/-! SUPPORT. The laws of bytes by address: a read after a write, and the canonical form, which every memory operation
keeps; the induction principles of the loops; the plane's cells. -/

namespace Sys2Proof.Machine

@[simp] theorem Memory.read_nil (a : Nat) : Memory.read [] a = Memory.blank := rfl

theorem Memory.read_cons (k : Nat) (b : Byte) (m : Memory) (a : Nat) :
    Memory.read ((k, b) :: m) a = if k = a then b else Memory.read m a := rfl

/-- Below the lowest address of a canonical list every byte is blank. -/
theorem Memory.read_below : ∀ {m : Memory} {lo a : Nat}, Memory.wfFrom lo m = true → a < lo →
    Memory.read m a = Memory.blank
  | [], _, _, _, _ => rfl
  | (k, b) :: m, lo, a, h, ha => by
    simp only [Memory.wfFrom, Bool.and_eq_true, decide_eq_true_eq] at h
    rw [Memory.read_cons, if_neg (by omega)]
    exact Memory.read_below h.2 (by omega)

/-- A write leaves every other byte alone. -/
theorem Memory.read_write_ne : ∀ (m : Memory) {a a' : Nat} (v : Byte), a' ≠ a →
    Memory.read (Memory.write m a v) a' = Memory.read m a'
  | [], a, a', v, h => by
    simp only [Memory.write]
    split
    · rfl
    · rw [Memory.read_cons, if_neg (fun e => h e.symm)]
  | (k, b) :: m, a, a', v, h => by
    simp only [Memory.write]
    split
    · split
      · rfl
      · rw [Memory.read_cons, if_neg (fun e => h e.symm)]
    · split
      · rename_i hk
        subst hk
        split
        · rw [Memory.read_cons, if_neg (fun e => h e.symm)]
        · rw [Memory.read_cons, Memory.read_cons, if_neg (fun e => h e.symm), if_neg (fun e => h e.symm)]
      · rw [Memory.read_cons, Memory.read_cons, Memory.read_write_ne m v h]

theorem Memory.read_write_same_from : ∀ {m : Memory} {lo : Nat} (a : Nat) (v : Byte), Memory.wfFrom lo m = true →
    Memory.read (Memory.write m a v) a = v
  | [], _, a, v, _ => by
    simp only [Memory.write]
    split
    · rename_i h; rw [h]; rfl
    · rw [Memory.read_cons, if_pos rfl]
  | (k, b) :: m, lo, a, v, h => by
    simp only [Memory.wfFrom, Bool.and_eq_true, decide_eq_true_eq] at h
    simp only [Memory.write]
    split
    · rename_i hk
      split
      · rename_i hv
        rw [Memory.read_cons, if_neg (by omega), Memory.read_below h.2 (by omega), hv]
      · rw [Memory.read_cons, if_pos rfl]
    · split
      · rename_i hk
        subst hk
        split
        · rename_i hv
          rw [Memory.read_below h.2 (by omega), hv]
        · rw [Memory.read_cons, if_pos rfl]
      · rw [Memory.read_cons, if_neg (by omega)]
        exact Memory.read_write_same_from a v h.2

/-- A read after a write to the same address gives the value written. -/
theorem Memory.read_write_same {m : Memory} (h : Memory.wf m = true) (a : Nat) (v : Byte) :
    Memory.read (Memory.write m a v) a = v := Memory.read_write_same_from a v h

theorem Memory.read_write {m : Memory} (h : Memory.wf m = true) (a a' : Nat) (v : Byte) :
    Memory.read (Memory.write m a v) a' = if a' = a then v else Memory.read m a' := by
  split
  · rename_i e; rw [e, Memory.read_write_same h]
  · rename_i e; exact Memory.read_write_ne m v e

theorem Memory.wfFrom_mono : ∀ {m : Memory} {lo lo' : Nat}, Memory.wfFrom lo m = true → lo' ≤ lo →
    Memory.wfFrom lo' m = true
  | [], _, _, _, _ => rfl
  | (k, b) :: m, lo, lo', h, hl => by
    simp only [Memory.wfFrom, Bool.and_eq_true, decide_eq_true_eq] at h ⊢
    exact ⟨⟨by omega, h.1.2⟩, h.2⟩

theorem Memory.wfFrom_write : ∀ {m : Memory} {lo : Nat} (a : Nat) (v : Byte), Memory.wfFrom lo m = true → lo ≤ a →
    Memory.wfFrom lo (Memory.write m a v) = true
  | [], lo, a, v, _, ha => by
    simp only [Memory.write]
    split
    · rfl
    · rename_i hv; simp [Memory.wfFrom, ha, hv]
  | (k, b) :: m, lo, a, v, h, ha => by
    simp only [Memory.wfFrom, Bool.and_eq_true, decide_eq_true_eq] at h
    simp only [Memory.write]
    split
    · rename_i hk
      split
      · simpa [Memory.wfFrom] using h
      · rename_i hv
        simp only [Memory.wfFrom, Bool.and_eq_true, decide_eq_true_eq]
        exact ⟨⟨ha, by simpa using hv⟩, ⟨by omega, h.1.2⟩, h.2⟩
    · split
      · rename_i hk
        subst hk
        split
        · exact Memory.wfFrom_mono h.2 (by omega)
        · rename_i hv
          simp only [Memory.wfFrom, Bool.and_eq_true, decide_eq_true_eq]
          exact ⟨⟨ha, by simpa using hv⟩, h.2⟩
      · simp only [Memory.wfFrom, Bool.and_eq_true, decide_eq_true_eq]
        exact ⟨⟨h.1.1, h.1.2⟩, Memory.wfFrom_write a v h.2 (by omega)⟩

/-- A write keeps the canonical form. -/
theorem Memory.wf_write {m : Memory} (h : Memory.wf m = true) (a : Nat) (v : Byte) :
    Memory.wf (Memory.write m a v) = true := Memory.wfFrom_write a v h (Nat.zero_le a)

@[simp] theorem Memory.wf_nil : Memory.wf [] = true := rfl

/-- A write below `n` keeps every listed address below `n`. -/
theorem Memory.below_write : ∀ {m : Memory} {n a : Nat} (v : Byte), Memory.below n m = true → a < n →
    Memory.below n (Memory.write m a v) = true
  | [], n, a, v, _, ha => by
    simp only [Memory.write]
    split
    · rfl
    · simp [Memory.below, ha]
  | (k, b) :: m, n, a, v, h, ha => by
    have h' : k < n ∧ Memory.below n m = true := by simpa [Memory.below] using h
    simp only [Memory.write]
    split
    · split
      · exact h
      · simpa [Memory.below, ha] using h'
    · split
      · split
        · exact h'.2
        · simpa [Memory.below, ha] using h'.2
      · have := Memory.below_write v h'.2 ha
        simp only [Memory.below, List.all_cons, Bool.and_eq_true, decide_eq_true_eq] at this ⊢
        exact ⟨h'.1, this⟩

theorem portAddress_lt (a : Nat) : portAddress a < memorySpace := Nat.mod_lt _ (by decide)

/-- The bytes of a region no longer than the memory space. -/
theorem inRegion_iff {base len a : Nat} (ha : a < memorySpace) (hl : len ≤ memorySpace) :
    inRegion base len a = true ↔ ∃ i, i < len ∧ a = portAddress (base + i) := by
  unfold inRegion portAddress memorySpace at *
  simp only [Bool.and_eq_true, decide_eq_true_eq]
  constructor
  · rintro ⟨_, h⟩; exact ⟨_, h, by omega⟩
  · rintro ⟨i, hi, h⟩; exact ⟨ha, by omega⟩

/-- A store on the memory port keeps the canonical form. -/
theorem wf_portWrite {m : Memory} (h : Memory.wf m = true) (a : Nat) (v : Byte) :
    Memory.wf (portWrite m a v) = true := Memory.wf_write h _ v

/-- A store on the memory port stays inside the memory space. -/
theorem below_portWrite {m : Memory} (h : Memory.below memorySpace m = true) (a : Nat) (v : Byte) :
    Memory.below memorySpace (portWrite m a v) = true := Memory.below_write v h (portAddress_lt a)

/-! ## Loops -/

@[simp] theorem forRange_zero {σ : Type} (f : Nat → σ → σ) (s : σ) : forRange 0 f s = s := rfl

theorem forRange_succ {σ : Type} (n : Nat) (f : Nat → σ → σ) (s : σ) :
    forRange (n + 1) f s = f n (forRange n f s) := rfl

/-- What holds before a loop and is kept by each turn holds after it; `P i` speaks of the state after `i` turns. -/
theorem forRange_induct {σ : Type} {n : Nat} {f : Nat → σ → σ} {s : σ} (P : Nat → σ → Prop) (h0 : P 0 s)
    (hs : ∀ i t, i < n → P i t → P (i + 1) (f i t)) : P n (forRange n f s) := by
  induction n with
  | zero => exact h0
  | succ n ih => exact hs n _ (Nat.lt_succ_self n) (ih (fun i t hi => hs i t (Nat.lt_succ_of_lt hi)))

/-- Two loops with the same turns agree. -/
theorem forRange_congr {σ : Type} {n : Nat} {f g : Nat → σ → σ} (s : σ) (h : ∀ i t, i < n → f i t = g i t) :
    forRange n f s = forRange n g s := by
  induction n with
  | zero => rfl
  | succ n ih =>
    rw [forRange_succ, forRange_succ, ih (fun i t hi => h i t (Nat.lt_succ_of_lt hi)), h n _ (Nat.lt_succ_self n)]

/-- What each turn of a row-by-row loop keeps holds after it. -/
theorem forCells_keeps {σ : Type} {w h : Nat} {f : Nat → Nat → σ → σ} {s : σ} (P : σ → Prop) (h0 : P s)
    (hs : ∀ x y t, x < w → y < h → P t → P (f x y t)) : P (forCells w h f s) := by
  unfold forCells
  refine forRange_induct (fun _ t => P t) h0 (fun y t hy ht => ?_)
  exact forRange_induct (fun _ u => P u) ht (fun x u hx hu => hs x y u hx hy hu)

/-- The induction over a row-by-row loop: `P n t` speaks of the state after `n` cells. -/
theorem forCells_induct {σ : Type} {w h : Nat} {f : Nat → Nat → σ → σ} {s : σ} (P : Nat → σ → Prop) (h0 : P 0 s)
    (hs : ∀ x y t, x < w → y < h → P (cellIndex w x y) t → P (cellIndex w x y + 1) (f x y t)) :
    P (w * h) (forCells w h f s) := by
  unfold forCells
  have := forRange_induct (n := h) (f := fun y t => forRange w (fun x u => f x y u) t) (s := s)
    (fun y t => P (y * w) t) (by simpa using h0) (fun y t hy ht => ?_)
  · rwa [Nat.mul_comm] at this
  · have := forRange_induct (n := w) (f := fun x u => f x y u) (s := t) (fun x u => P (y * w + x) u)
      (by simpa using ht) (fun x u hx hu => hs x y u hx hy hu)
    rwa [Nat.succ_mul]

/-! ## The plane's cells -/

/-- Different cells of a plane stand in different places of the plane buffer. -/
theorem cellIndex_inj {pw x y x' y' : Nat} (hx : x < pw) (hx' : x' < pw) :
    cellIndex pw x y = cellIndex pw x' y' ↔ x = x' ∧ y = y' := by
  unfold cellIndex
  constructor
  · intro h
    have hm := congrArg (· % pw) h
    have hd := congrArg (· / pw) h
    have hp : 0 < pw := by omega
    simp only [Nat.mul_comm y pw, Nat.mul_comm y' pw, Nat.mul_add_mod, Nat.mod_eq_of_lt hx, Nat.mod_eq_of_lt hx',
      Nat.mul_add_div hp, Nat.div_eq_of_lt hx, Nat.div_eq_of_lt hx', Nat.add_zero] at hm hd
    exact ⟨hm, hd⟩
  · rintro ⟨rfl, rfl⟩; rfl

/-- A cell of a `pw × ph` plane stands below `pw × ph` in the plane buffer. -/
theorem cellIndex_lt {pw ph x y : Nat} (hx : x < pw) (hy : y < ph) : cellIndex pw x y < pw * ph := by
  unfold cellIndex
  have : (y + 1) * pw ≤ ph * pw := Nat.mul_le_mul_right pw hy
  rw [Nat.succ_mul] at this
  rw [Nat.mul_comm pw ph]
  omega

theorem wf_planeSet {p : Memory} (h : Memory.wf p = true) (pw x y : Nat) (v : Byte) :
    Memory.wf (planeSet p pw x y v) = true := Memory.wf_write h _ v

theorem below_planeSet {p : Memory} {pw ph x y : Nat} (v : Byte) (hx : x < pw) (hy : y < ph) {n : Nat}
    (hn : pw * ph ≤ n) (h : Memory.below n p = true) : Memory.below n (planeSet p pw x y v) = true :=
  Memory.below_write v h (Nat.lt_of_lt_of_le (cellIndex_lt hx hy) hn)

/-- A cell after a write of a cell. -/
theorem planeGet_planeSet {p : Memory} (h : Memory.wf p = true) {pw x y x' y' : Nat} (v : Byte) (hx : x < pw)
    (hx' : x' < pw) : planeGet (planeSet p pw x y v) pw x' y' = if x' = x ∧ y' = y then v else planeGet p pw x' y' := by
  unfold planeGet planeSet
  rw [Memory.read_write h]
  by_cases e : x' = x ∧ y' = y
  · rw [if_pos e, if_pos ((cellIndex_inj hx' hx).2 e)]
  · rw [if_neg e, if_neg (fun h' => e ((cellIndex_inj hx' hx).1 h'))]

/-- A write of a cell leaves the places of the buffer outside the plane alone. -/
theorem read_planeSet_outside {p : Memory} {pw ph x y j : Nat} (v : Byte) (hx : x < pw) (hy : y < ph)
    (hj : pw * ph ≤ j) : Memory.read (planeSet p pw x y v) j = Memory.read p j :=
  Memory.read_write_ne p v (by have := cellIndex_lt hx hy; omega)

/-- What a loop that writes each cell of a `pw × ph` plane from its own old value does: each cell holds its function
of the old value, the places outside the plane are as before, and the canonical form is kept. -/
theorem planeMap_spec (pw ph : Nat) (f : Nat → Nat → Byte → Byte) {p : Memory} (h : Memory.wf p = true) :
    Memory.wf (planeMap pw ph f p) = true
      ∧ (∀ x y, x < pw → y < ph → planeGet (planeMap pw ph f p) pw x y = f x y (planeGet p pw x y))
      ∧ (∀ j, pw * ph ≤ j → Memory.read (planeMap pw ph f p) j = Memory.read p j) := by
  have key := forCells_induct (w := pw) (h := ph)
    (f := fun x y q => planeSet q pw x y (f x y (planeGet q pw x y))) (s := p)
    (fun n q => Memory.wf q = true
      ∧ (∀ x y, x < pw → y < ph →
          planeGet q pw x y = if cellIndex pw x y < n then f x y (planeGet p pw x y) else planeGet p pw x y)
      ∧ (∀ j, pw * ph ≤ j → Memory.read q j = Memory.read p j))
    ⟨h, fun x y _ _ => by rw [if_neg (Nat.not_lt_zero _)], fun _ _ => rfl⟩ ?_
  · refine ⟨key.1, fun x y hx hy => ?_, key.2.2⟩
    have := key.2.1 x y hx hy
    rwa [if_pos (cellIndex_lt hx hy)] at this
  · rintro x y q hx hy ⟨hq, hc, ho⟩
    refine ⟨wf_planeSet hq _ _ _ _, fun x' y' hx' hy' => ?_, fun j hj => ?_⟩
    · rw [planeGet_planeSet hq _ hx hx']
      by_cases e : x' = x ∧ y' = y
      · obtain ⟨rfl, rfl⟩ := e
        rw [if_pos ⟨rfl, rfl⟩, if_pos (Nat.lt_succ_self _), hc _ _ hx' hy', if_neg (Nat.lt_irrefl _)]
      · rw [if_neg e, hc _ _ hx' hy']
        have : cellIndex pw x' y' ≠ cellIndex pw x y := fun h' => e ((cellIndex_inj hx' hx).1 h')
        by_cases hlt : cellIndex pw x' y' < cellIndex pw x y
        · rw [if_pos hlt, if_pos (by omega)]
        · rw [if_neg hlt, if_neg (by omega)]
    · rw [read_planeSet_outside _ hx hy hj, ho j hj]

/-- Writing cells of a plane that fits in `n` places keeps every listed place below `n`. -/
theorem below_planeMap {pw ph n : Nat} (f : Nat → Nat → Byte → Byte) {p : Memory} (hn : pw * ph ≤ n)
    (h : Memory.below n p = true) : Memory.below n (planeMap pw ph f p) = true :=
  forCells_keeps (fun q => Memory.below n q = true) h (fun _ _ _ hx hy hq => below_planeSet _ hx hy hn hq)

end Sys2Proof.Machine
end

