-- ==== Sys2Proof/Laws/PerInstr.lean ====
section
/-! SUPPORT. For every constructor: its encoding lies in its row of spec/opcode_table.json. The row's match and mask are
the table's own numbers. -/

namespace Sys2Proof.Laws

/-- The mask of a row of spec/opcode_table.json. -/
def rowMask : Instr → Word
  | .illegal _ => 0x00000000#32
  | _ => 0xFFFFFFFF#32

/-- The match of a row of spec/opcode_table.json. -/
def rowMatch : Instr → Word
  | .nop => 0x00000000#32
  | .convert => 0x00000001#32
  | .reduce => 0x00000002#32
  | .adjust => 0x00000003#32
  | .dither => 0x00000004#32
  | .ditherNone => 0x00000004#32
  | .ditherFloyd => 0x00000004#32
  | .ditherOrdered => 0x00000004#32
  | .quantize => 0x00000005#32
  | .quantize1 => 0x00000005#32
  | .quantize4 => 0x00000005#32
  | .pack => 0x00000006#32
  | .pack4h => 0x00000006#32
  | .pack4v => 0x00000006#32
  | .pack1h => 0x00000006#32
  | .pack1v => 0x00000006#32
  | .illegal _ => 0x00000000#32

/-- A well-formed instruction's word matches its row, and it is an illegal word exactly when the row is ILLEGAL. -/
def RowMatch.Statement (i : Instr) : Prop :=
  i.wellFormed = true →
    encode i &&& rowMask i = rowMatch i ∧ (illegalWord (encode i) = true ↔ ∃ w, i = .illegal w)

theorem RowMatch.nop : RowMatch.Statement .nop := fun _ => ⟨by decide, by simp [illegalWord, encode]⟩
theorem RowMatch.convert : RowMatch.Statement .convert := fun _ => ⟨by decide, by simp [illegalWord, encode]⟩
theorem RowMatch.reduce : RowMatch.Statement .reduce := fun _ => ⟨by decide, by simp [illegalWord, encode]⟩
theorem RowMatch.adjust : RowMatch.Statement .adjust := fun _ => ⟨by decide, by simp [illegalWord, encode]⟩
theorem RowMatch.dither : RowMatch.Statement .dither := fun _ => ⟨by decide, by simp [illegalWord, encode]⟩
theorem RowMatch.quantize : RowMatch.Statement .quantize := fun _ => ⟨by decide, by simp [illegalWord, encode]⟩
theorem RowMatch.pack : RowMatch.Statement .pack := fun _ => ⟨by decide, by simp [illegalWord, encode]⟩
theorem RowMatch.ditherNone : RowMatch.Statement .ditherNone := fun _ => ⟨by decide, by simp [illegalWord, encode]⟩
theorem RowMatch.ditherFloyd : RowMatch.Statement .ditherFloyd := fun _ => ⟨by decide, by simp [illegalWord, encode]⟩
theorem RowMatch.ditherOrdered : RowMatch.Statement .ditherOrdered :=
  fun _ => ⟨by decide, by simp [illegalWord, encode]⟩
theorem RowMatch.quantize1 : RowMatch.Statement .quantize1 := fun _ => ⟨by decide, by simp [illegalWord, encode]⟩
theorem RowMatch.quantize4 : RowMatch.Statement .quantize4 := fun _ => ⟨by decide, by simp [illegalWord, encode]⟩
theorem RowMatch.pack4h : RowMatch.Statement .pack4h := fun _ => ⟨by decide, by simp [illegalWord, encode]⟩
theorem RowMatch.pack4v : RowMatch.Statement .pack4v := fun _ => ⟨by decide, by simp [illegalWord, encode]⟩
theorem RowMatch.pack1h : RowMatch.Statement .pack1h := fun _ => ⟨by decide, by simp [illegalWord, encode]⟩
theorem RowMatch.pack1v : RowMatch.Statement .pack1v := fun _ => ⟨by decide, by simp [illegalWord, encode]⟩
theorem RowMatch.illegal (w : Word) : RowMatch.Statement (.illegal w) :=
  fun h => ⟨by simp [encode, rowMask, rowMatch], by simpa [encode, Instr.wellFormed] using h⟩

end Sys2Proof.Laws
end

