-- ==== Sys2Proof/Laws/State.lean ====
section
/-! SUPPORT. What each state update leaves in each field of the state: one lemma per field per update, true by `rfl`. -/

namespace Sys2Proof.Machine

/-! ## Fields after `finish` (R114) -/

@[simp] theorem finish_regs (s : State) : (finish s).regs = s.regs := rfl
@[simp] theorem finish_inten (s : State) : (finish s).inten = s.inten := rfl
@[simp] theorem finish_status (s : State) : (finish s).status = { s.status with done := true, busy := false } := rfl
@[simp] theorem finish_rowSize (s : State) : (finish s).rowSize = s.rowSize := rfl
@[simp] theorem finish_outLen (s : State) : (finish s).outLen = s.outLen := rfl
@[simp] theorem finish_pend (s : State) : (finish s).pend = s.pend := rfl
@[simp] theorem finish_snap (s : State) : (finish s).snap = s.snap := rfl
@[simp] theorem finish_latch (s : State) : (finish s).latch = s.latch := rfl
@[simp] theorem finish_plane (s : State) : (finish s).plane = s.plane := rfl
@[simp] theorem finish_mem (s : State) : (finish s).mem = s.mem := rfl
@[simp] theorem finish_platform (s : State) : (finish s).platform = s.platform := rfl
@[simp] theorem finish_inbox (s : State) : (finish s).inbox = s.inbox := rfl
@[simp] theorem finish_reply (s : State) : (finish s).reply = s.reply := rfl
@[simp] theorem finish_touched (s : State) : (finish s).touched = [] := rfl
@[simp] theorem finish_freeCount (s : State) : (finish s).freeCount = s.freeCount := rfl

/-! ## Fields after `raise Error(code)` (R115) -/

@[simp] theorem raiseError_regs (e : CmdError) (s : State) : (raiseError e s).regs = s.regs := rfl
@[simp] theorem raiseError_inten (e : CmdError) (s : State) : (raiseError e s).inten = s.inten := rfl
@[simp] theorem raiseError_status (e : CmdError) (s : State) : (raiseError e s).status = { s.status with pk := if e.releasesPlane then .empty else s.status.pk, err := true, errcode := e.code, busy := false } := rfl
@[simp] theorem raiseError_rowSize (e : CmdError) (s : State) : (raiseError e s).rowSize = s.rowSize := rfl
@[simp] theorem raiseError_outLen (e : CmdError) (s : State) : (raiseError e s).outLen = s.outLen := rfl
@[simp] theorem raiseError_pend (e : CmdError) (s : State) : (raiseError e s).pend = s.pend := rfl
@[simp] theorem raiseError_snap (e : CmdError) (s : State) : (raiseError e s).snap = s.snap := rfl
@[simp] theorem raiseError_latch (e : CmdError) (s : State) : (raiseError e s).latch = s.latch := rfl
@[simp] theorem raiseError_plane (e : CmdError) (s : State) : (raiseError e s).plane = s.plane := rfl
@[simp] theorem raiseError_mem (e : CmdError) (s : State) : (raiseError e s).mem = s.mem := rfl
@[simp] theorem raiseError_platform (e : CmdError) (s : State) : (raiseError e s).platform = s.platform := rfl
@[simp] theorem raiseError_inbox (e : CmdError) (s : State) : (raiseError e s).inbox = s.inbox := rfl
@[simp] theorem raiseError_reply (e : CmdError) (s : State) : (raiseError e s).reply = s.reply := rfl
@[simp] theorem raiseError_touched (e : CmdError) (s : State) : (raiseError e s).touched = [] := rfl
@[simp] theorem raiseError_freeCount (e : CmdError) (s : State) : (raiseError e s).freeCount = s.freeCount := rfl

/-! ## Fields after the latch (R82) -/

@[simp] theorem writeLatch_regs (L : Latch) (s : State) : (writeLatch L s).regs = s.regs := rfl
@[simp] theorem writeLatch_inten (L : Latch) (s : State) : (writeLatch L s).inten = s.inten := rfl
@[simp] theorem writeLatch_status (L : Latch) (s : State) : (writeLatch L s).status = s.status := rfl
@[simp] theorem writeLatch_rowSize (L : Latch) (s : State) : (writeLatch L s).rowSize = L.rowSize := rfl
@[simp] theorem writeLatch_outLen (L : Latch) (s : State) : (writeLatch L s).outLen = L.outLen := rfl
@[simp] theorem writeLatch_pend (L : Latch) (s : State) : (writeLatch L s).pend = s.pend := rfl
@[simp] theorem writeLatch_snap (L : Latch) (s : State) : (writeLatch L s).snap = s.snap := rfl
@[simp] theorem writeLatch_latch (L : Latch) (s : State) : (writeLatch L s).latch = L := rfl
@[simp] theorem writeLatch_plane (L : Latch) (s : State) : (writeLatch L s).plane = s.plane := rfl
@[simp] theorem writeLatch_mem (L : Latch) (s : State) : (writeLatch L s).mem = s.mem := rfl
@[simp] theorem writeLatch_platform (L : Latch) (s : State) : (writeLatch L s).platform = s.platform := rfl
@[simp] theorem writeLatch_inbox (L : Latch) (s : State) : (writeLatch L s).inbox = s.inbox := rfl
@[simp] theorem writeLatch_reply (L : Latch) (s : State) : (writeLatch L s).reply = s.reply := rfl
@[simp] theorem writeLatch_touched (L : Latch) (s : State) : (writeLatch L s).touched = s.touched := rfl
@[simp] theorem writeLatch_freeCount (L : Latch) (s : State) : (writeLatch L s).freeCount = s.freeCount := rfl

/-! ## Fields after the acceptance of a command (R72) -/

@[simp] theorem acceptCommand_regs (w : Word) (s : State) : (acceptCommand w s).regs = s.regs := rfl
@[simp] theorem acceptCommand_inten (w : Word) (s : State) : (acceptCommand w s).inten = s.inten := rfl
@[simp] theorem acceptCommand_status (w : Word) (s : State) : (acceptCommand w s).status = { s.status with busy := true } := rfl
@[simp] theorem acceptCommand_rowSize (w : Word) (s : State) : (acceptCommand w s).rowSize = s.rowSize := rfl
@[simp] theorem acceptCommand_outLen (w : Word) (s : State) : (acceptCommand w s).outLen = s.outLen := rfl
@[simp] theorem acceptCommand_pend (w : Word) (s : State) : (acceptCommand w s).pend = w := rfl
@[simp] theorem acceptCommand_snap (w : Word) (s : State) : (acceptCommand w s).snap = s.regs := rfl
@[simp] theorem acceptCommand_latch (w : Word) (s : State) : (acceptCommand w s).latch = s.latch := rfl
@[simp] theorem acceptCommand_plane (w : Word) (s : State) : (acceptCommand w s).plane = s.plane := rfl
@[simp] theorem acceptCommand_mem (w : Word) (s : State) : (acceptCommand w s).mem = s.mem := rfl
@[simp] theorem acceptCommand_platform (w : Word) (s : State) : (acceptCommand w s).platform = s.platform := rfl
@[simp] theorem acceptCommand_inbox (w : Word) (s : State) : (acceptCommand w s).inbox = s.inbox := rfl
@[simp] theorem acceptCommand_reply (w : Word) (s : State) : (acceptCommand w s).reply = s.reply := rfl
@[simp] theorem acceptCommand_touched (w : Word) (s : State) : (acceptCommand w s).touched = [] := rfl
@[simp] theorem acceptCommand_freeCount (w : Word) (s : State) : (acceptCommand w s).freeCount = s.freeCount := rfl

/-! ## Fields after the response to a host access -/

@[simp] theorem withReply_regs (r : HostReply) (s : State) : (withReply r s).regs = s.regs := rfl
@[simp] theorem withReply_inten (r : HostReply) (s : State) : (withReply r s).inten = s.inten := rfl
@[simp] theorem withReply_status (r : HostReply) (s : State) : (withReply r s).status = s.status := rfl
@[simp] theorem withReply_rowSize (r : HostReply) (s : State) : (withReply r s).rowSize = s.rowSize := rfl
@[simp] theorem withReply_outLen (r : HostReply) (s : State) : (withReply r s).outLen = s.outLen := rfl
@[simp] theorem withReply_pend (r : HostReply) (s : State) : (withReply r s).pend = s.pend := rfl
@[simp] theorem withReply_snap (r : HostReply) (s : State) : (withReply r s).snap = s.snap := rfl
@[simp] theorem withReply_latch (r : HostReply) (s : State) : (withReply r s).latch = s.latch := rfl
@[simp] theorem withReply_plane (r : HostReply) (s : State) : (withReply r s).plane = s.plane := rfl
@[simp] theorem withReply_mem (r : HostReply) (s : State) : (withReply r s).mem = s.mem := rfl
@[simp] theorem withReply_platform (r : HostReply) (s : State) : (withReply r s).platform = s.platform := rfl
@[simp] theorem withReply_inbox (r : HostReply) (s : State) : (withReply r s).inbox = s.inbox := rfl
@[simp] theorem withReply_reply (r : HostReply) (s : State) : (withReply r s).reply = some r := rfl
@[simp] theorem withReply_touched (r : HostReply) (s : State) : (withReply r s).touched = s.touched := rfl
@[simp] theorem withReply_freeCount (r : HostReply) (s : State) : (withReply r s).freeCount = s.freeCount := rfl

/-! ## Fields after the host's accesses to come -/

@[simp] theorem withInbox_regs (l : List HostEvent) (s : State) : (withInbox l s).regs = s.regs := rfl
@[simp] theorem withInbox_inten (l : List HostEvent) (s : State) : (withInbox l s).inten = s.inten := rfl
@[simp] theorem withInbox_status (l : List HostEvent) (s : State) : (withInbox l s).status = s.status := rfl
@[simp] theorem withInbox_rowSize (l : List HostEvent) (s : State) : (withInbox l s).rowSize = s.rowSize := rfl
@[simp] theorem withInbox_outLen (l : List HostEvent) (s : State) : (withInbox l s).outLen = s.outLen := rfl
@[simp] theorem withInbox_pend (l : List HostEvent) (s : State) : (withInbox l s).pend = s.pend := rfl
@[simp] theorem withInbox_snap (l : List HostEvent) (s : State) : (withInbox l s).snap = s.snap := rfl
@[simp] theorem withInbox_latch (l : List HostEvent) (s : State) : (withInbox l s).latch = s.latch := rfl
@[simp] theorem withInbox_plane (l : List HostEvent) (s : State) : (withInbox l s).plane = s.plane := rfl
@[simp] theorem withInbox_mem (l : List HostEvent) (s : State) : (withInbox l s).mem = s.mem := rfl
@[simp] theorem withInbox_platform (l : List HostEvent) (s : State) : (withInbox l s).platform = s.platform := rfl
@[simp] theorem withInbox_inbox (l : List HostEvent) (s : State) : (withInbox l s).inbox = l := rfl
@[simp] theorem withInbox_reply (l : List HostEvent) (s : State) : (withInbox l s).reply = s.reply := rfl
@[simp] theorem withInbox_touched (l : List HostEvent) (s : State) : (withInbox l s).touched = s.touched := rfl
@[simp] theorem withInbox_freeCount (l : List HostEvent) (s : State) : (withInbox l s).freeCount = s.freeCount := rfl

/-! ## Fields after REDUCE's plane (R85) -/

@[simp] theorem withReducedPlane_regs (p : Memory) (s : State) : (withReducedPlane p s).regs = s.regs := rfl
@[simp] theorem withReducedPlane_inten (p : Memory) (s : State) : (withReducedPlane p s).inten = s.inten := rfl
@[simp] theorem withReducedPlane_status (p : Memory) (s : State) : (withReducedPlane p s).status = s.status := rfl
@[simp] theorem withReducedPlane_rowSize (p : Memory) (s : State) : (withReducedPlane p s).rowSize = s.rowSize := rfl
@[simp] theorem withReducedPlane_outLen (p : Memory) (s : State) : (withReducedPlane p s).outLen = s.outLen := rfl
@[simp] theorem withReducedPlane_pend (p : Memory) (s : State) : (withReducedPlane p s).pend = s.pend := rfl
@[simp] theorem withReducedPlane_snap (p : Memory) (s : State) : (withReducedPlane p s).snap = s.snap := rfl
@[simp] theorem withReducedPlane_latch (p : Memory) (s : State) : (withReducedPlane p s).latch = s.latch := rfl
@[simp] theorem withReducedPlane_plane (p : Memory) (s : State) : (withReducedPlane p s).plane = p := rfl
@[simp] theorem withReducedPlane_mem (p : Memory) (s : State) : (withReducedPlane p s).mem = s.mem := rfl
@[simp] theorem withReducedPlane_platform (p : Memory) (s : State) : (withReducedPlane p s).platform = s.platform := rfl
@[simp] theorem withReducedPlane_inbox (p : Memory) (s : State) : (withReducedPlane p s).inbox = s.inbox := rfl
@[simp] theorem withReducedPlane_reply (p : Memory) (s : State) : (withReducedPlane p s).reply = s.reply := rfl
@[simp] theorem withReducedPlane_touched (p : Memory) (s : State) : (withReducedPlane p s).touched = s.touched := rfl
@[simp] theorem withReducedPlane_freeCount (p : Memory) (s : State) : (withReducedPlane p s).freeCount = s.freeCount + s.latch.pw * s.latch.ph := rfl

/-! ## Fields after `AdjustBody()` (R92) -/

@[simp] theorem adjustBody_regs (s : State) : (adjustBody s).regs = s.regs := rfl
@[simp] theorem adjustBody_inten (s : State) : (adjustBody s).inten = s.inten := rfl
@[simp] theorem adjustBody_status (s : State) : (adjustBody s).status = s.status := rfl
@[simp] theorem adjustBody_rowSize (s : State) : (adjustBody s).rowSize = s.rowSize := rfl
@[simp] theorem adjustBody_outLen (s : State) : (adjustBody s).outLen = s.outLen := rfl
@[simp] theorem adjustBody_pend (s : State) : (adjustBody s).pend = s.pend := rfl
@[simp] theorem adjustBody_snap (s : State) : (adjustBody s).snap = s.snap := rfl
@[simp] theorem adjustBody_latch (s : State) : (adjustBody s).latch = s.latch := rfl
@[simp] theorem adjustBody_plane (s : State) : (adjustBody s).plane = planeMap s.latch.pw s.latch.ph (fun _ _ v => adjustValue v s.latch.b s.latch.c) s.plane := rfl
@[simp] theorem adjustBody_mem (s : State) : (adjustBody s).mem = s.mem := rfl
@[simp] theorem adjustBody_platform (s : State) : (adjustBody s).platform = s.platform := rfl
@[simp] theorem adjustBody_inbox (s : State) : (adjustBody s).inbox = s.inbox := rfl
@[simp] theorem adjustBody_reply (s : State) : (adjustBody s).reply = s.reply := rfl
@[simp] theorem adjustBody_touched (s : State) : (adjustBody s).touched = s.touched := rfl
@[simp] theorem adjustBody_freeCount (s : State) : (adjustBody s).freeCount = s.freeCount := rfl

/-! ## Fields after DITHER.floyd (R95) -/

@[simp] theorem ditherFloydBody_regs (s : State) : (ditherFloydBody s).regs = s.regs := rfl
@[simp] theorem ditherFloydBody_inten (s : State) : (ditherFloydBody s).inten = s.inten := rfl
@[simp] theorem ditherFloydBody_status (s : State) : (ditherFloydBody s).status = s.status := rfl
@[simp] theorem ditherFloydBody_rowSize (s : State) : (ditherFloydBody s).rowSize = s.rowSize := rfl
@[simp] theorem ditherFloydBody_outLen (s : State) : (ditherFloydBody s).outLen = s.outLen := rfl
@[simp] theorem ditherFloydBody_pend (s : State) : (ditherFloydBody s).pend = s.pend := rfl
@[simp] theorem ditherFloydBody_snap (s : State) : (ditherFloydBody s).snap = s.snap := rfl
@[simp] theorem ditherFloydBody_latch (s : State) : (ditherFloydBody s).latch = s.latch := rfl
@[simp] theorem ditherFloydBody_plane (s : State) : (ditherFloydBody s).plane = floydSteinberg s.latch.pw s.latch.ph s.plane := rfl
@[simp] theorem ditherFloydBody_mem (s : State) : (ditherFloydBody s).mem = s.mem := rfl
@[simp] theorem ditherFloydBody_platform (s : State) : (ditherFloydBody s).platform = s.platform := rfl
@[simp] theorem ditherFloydBody_inbox (s : State) : (ditherFloydBody s).inbox = s.inbox := rfl
@[simp] theorem ditherFloydBody_reply (s : State) : (ditherFloydBody s).reply = s.reply := rfl
@[simp] theorem ditherFloydBody_touched (s : State) : (ditherFloydBody s).touched = s.touched := rfl
@[simp] theorem ditherFloydBody_freeCount (s : State) : (ditherFloydBody s).freeCount = s.freeCount := rfl

/-! ## Fields after DITHER.o8x8 (R97) -/

@[simp] theorem ditherOrderedBody_regs (s : State) : (ditherOrderedBody s).regs = s.regs := rfl
@[simp] theorem ditherOrderedBody_inten (s : State) : (ditherOrderedBody s).inten = s.inten := rfl
@[simp] theorem ditherOrderedBody_status (s : State) : (ditherOrderedBody s).status = s.status := rfl
@[simp] theorem ditherOrderedBody_rowSize (s : State) : (ditherOrderedBody s).rowSize = s.rowSize := rfl
@[simp] theorem ditherOrderedBody_outLen (s : State) : (ditherOrderedBody s).outLen = s.outLen := rfl
@[simp] theorem ditherOrderedBody_pend (s : State) : (ditherOrderedBody s).pend = s.pend := rfl
@[simp] theorem ditherOrderedBody_snap (s : State) : (ditherOrderedBody s).snap = s.snap := rfl
@[simp] theorem ditherOrderedBody_latch (s : State) : (ditherOrderedBody s).latch = s.latch := rfl
@[simp] theorem ditherOrderedBody_plane (s : State) : (ditherOrderedBody s).plane = ordered s.platform s.latch.pw s.latch.ph s.plane := rfl
@[simp] theorem ditherOrderedBody_mem (s : State) : (ditherOrderedBody s).mem = s.mem := rfl
@[simp] theorem ditherOrderedBody_platform (s : State) : (ditherOrderedBody s).platform = s.platform := rfl
@[simp] theorem ditherOrderedBody_inbox (s : State) : (ditherOrderedBody s).inbox = s.inbox := rfl
@[simp] theorem ditherOrderedBody_reply (s : State) : (ditherOrderedBody s).reply = s.reply := rfl
@[simp] theorem ditherOrderedBody_touched (s : State) : (ditherOrderedBody s).touched = s.touched := rfl
@[simp] theorem ditherOrderedBody_freeCount (s : State) : (ditherOrderedBody s).freeCount = s.freeCount := rfl

/-! ## Fields after QUANTIZE.1bpp (R102) -/

@[simp] theorem quantizeOneBody_regs (s : State) : (quantizeOneBody s).regs = s.regs := rfl
@[simp] theorem quantizeOneBody_inten (s : State) : (quantizeOneBody s).inten = s.inten := rfl
@[simp] theorem quantizeOneBody_status (s : State) : (quantizeOneBody s).status = { s.status with pk := .level1 } := rfl
@[simp] theorem quantizeOneBody_rowSize (s : State) : (quantizeOneBody s).rowSize = s.rowSize := rfl
@[simp] theorem quantizeOneBody_outLen (s : State) : (quantizeOneBody s).outLen = s.outLen := rfl
@[simp] theorem quantizeOneBody_pend (s : State) : (quantizeOneBody s).pend = s.pend := rfl
@[simp] theorem quantizeOneBody_snap (s : State) : (quantizeOneBody s).snap = s.snap := rfl
@[simp] theorem quantizeOneBody_latch (s : State) : (quantizeOneBody s).latch = s.latch := rfl
@[simp] theorem quantizeOneBody_plane (s : State) : (quantizeOneBody s).plane = planeMap s.latch.pw s.latch.ph (fun _ _ v => quantizeOne v) s.plane := rfl
@[simp] theorem quantizeOneBody_mem (s : State) : (quantizeOneBody s).mem = s.mem := rfl
@[simp] theorem quantizeOneBody_platform (s : State) : (quantizeOneBody s).platform = s.platform := rfl
@[simp] theorem quantizeOneBody_inbox (s : State) : (quantizeOneBody s).inbox = s.inbox := rfl
@[simp] theorem quantizeOneBody_reply (s : State) : (quantizeOneBody s).reply = s.reply := rfl
@[simp] theorem quantizeOneBody_touched (s : State) : (quantizeOneBody s).touched = s.touched := rfl
@[simp] theorem quantizeOneBody_freeCount (s : State) : (quantizeOneBody s).freeCount = s.freeCount := rfl

/-! ## Fields after QUANTIZE.4bpp (R103) -/

@[simp] theorem quantizeFourBody_regs (s : State) : (quantizeFourBody s).regs = s.regs := rfl
@[simp] theorem quantizeFourBody_inten (s : State) : (quantizeFourBody s).inten = s.inten := rfl
@[simp] theorem quantizeFourBody_status (s : State) : (quantizeFourBody s).status = { s.status with pk := .level4 } := rfl
@[simp] theorem quantizeFourBody_rowSize (s : State) : (quantizeFourBody s).rowSize = s.rowSize := rfl
@[simp] theorem quantizeFourBody_outLen (s : State) : (quantizeFourBody s).outLen = s.outLen := rfl
@[simp] theorem quantizeFourBody_pend (s : State) : (quantizeFourBody s).pend = s.pend := rfl
@[simp] theorem quantizeFourBody_snap (s : State) : (quantizeFourBody s).snap = s.snap := rfl
@[simp] theorem quantizeFourBody_latch (s : State) : (quantizeFourBody s).latch = s.latch := rfl
@[simp] theorem quantizeFourBody_plane (s : State) : (quantizeFourBody s).plane = planeMap s.latch.pw s.latch.ph (fun _ _ v => quantizeFour v) s.plane := rfl
@[simp] theorem quantizeFourBody_mem (s : State) : (quantizeFourBody s).mem = s.mem := rfl
@[simp] theorem quantizeFourBody_platform (s : State) : (quantizeFourBody s).platform = s.platform := rfl
@[simp] theorem quantizeFourBody_inbox (s : State) : (quantizeFourBody s).inbox = s.inbox := rfl
@[simp] theorem quantizeFourBody_reply (s : State) : (quantizeFourBody s).reply = s.reply := rfl
@[simp] theorem quantizeFourBody_touched (s : State) : (quantizeFourBody s).touched = s.touched := rfl
@[simp] theorem quantizeFourBody_freeCount (s : State) : (quantizeFourBody s).freeCount = s.freeCount := rfl

/-! ## Fields after `DitherBody()` (R93), `QuantizeBody()` (R101) and the 1-bpp stages of CONVERT (R112) -/

@[simp] theorem ditherBody_regs (s : State) : (ditherBody s).regs = s.regs := by
  unfold ditherBody; cases s.latch.dither <;> rfl
@[simp] theorem ditherBody_inten (s : State) : (ditherBody s).inten = s.inten := by
  unfold ditherBody; cases s.latch.dither <;> rfl
@[simp] theorem ditherBody_status (s : State) : (ditherBody s).status = s.status := by
  unfold ditherBody; cases s.latch.dither <;> rfl
@[simp] theorem ditherBody_rowSize (s : State) : (ditherBody s).rowSize = s.rowSize := by
  unfold ditherBody; cases s.latch.dither <;> rfl
@[simp] theorem ditherBody_outLen (s : State) : (ditherBody s).outLen = s.outLen := by
  unfold ditherBody; cases s.latch.dither <;> rfl
@[simp] theorem ditherBody_pend (s : State) : (ditherBody s).pend = s.pend := by
  unfold ditherBody; cases s.latch.dither <;> rfl
@[simp] theorem ditherBody_snap (s : State) : (ditherBody s).snap = s.snap := by
  unfold ditherBody; cases s.latch.dither <;> rfl
@[simp] theorem ditherBody_latch (s : State) : (ditherBody s).latch = s.latch := by
  unfold ditherBody; cases s.latch.dither <;> rfl
@[simp] theorem ditherBody_mem (s : State) : (ditherBody s).mem = s.mem := by
  unfold ditherBody; cases s.latch.dither <;> rfl
@[simp] theorem ditherBody_platform (s : State) : (ditherBody s).platform = s.platform := by
  unfold ditherBody; cases s.latch.dither <;> rfl
@[simp] theorem ditherBody_inbox (s : State) : (ditherBody s).inbox = s.inbox := by
  unfold ditherBody; cases s.latch.dither <;> rfl
@[simp] theorem ditherBody_reply (s : State) : (ditherBody s).reply = s.reply := by
  unfold ditherBody; cases s.latch.dither <;> rfl
@[simp] theorem ditherBody_touched (s : State) : (ditherBody s).touched = s.touched := by
  unfold ditherBody; cases s.latch.dither <;> rfl
@[simp] theorem ditherBody_freeCount (s : State) : (ditherBody s).freeCount = s.freeCount := by
  unfold ditherBody; cases s.latch.dither <;> rfl
@[simp] theorem quantizeBody_regs (s : State) : (quantizeBody s).regs = s.regs := by
  unfold quantizeBody; cases s.latch.outBpp <;> rfl
@[simp] theorem quantizeBody_inten (s : State) : (quantizeBody s).inten = s.inten := by
  unfold quantizeBody; cases s.latch.outBpp <;> rfl
@[simp] theorem quantizeBody_rowSize (s : State) : (quantizeBody s).rowSize = s.rowSize := by
  unfold quantizeBody; cases s.latch.outBpp <;> rfl
@[simp] theorem quantizeBody_outLen (s : State) : (quantizeBody s).outLen = s.outLen := by
  unfold quantizeBody; cases s.latch.outBpp <;> rfl
@[simp] theorem quantizeBody_pend (s : State) : (quantizeBody s).pend = s.pend := by
  unfold quantizeBody; cases s.latch.outBpp <;> rfl
@[simp] theorem quantizeBody_snap (s : State) : (quantizeBody s).snap = s.snap := by
  unfold quantizeBody; cases s.latch.outBpp <;> rfl
@[simp] theorem quantizeBody_latch (s : State) : (quantizeBody s).latch = s.latch := by
  unfold quantizeBody; cases s.latch.outBpp <;> rfl
@[simp] theorem quantizeBody_mem (s : State) : (quantizeBody s).mem = s.mem := by
  unfold quantizeBody; cases s.latch.outBpp <;> rfl
@[simp] theorem quantizeBody_platform (s : State) : (quantizeBody s).platform = s.platform := by
  unfold quantizeBody; cases s.latch.outBpp <;> rfl
@[simp] theorem quantizeBody_inbox (s : State) : (quantizeBody s).inbox = s.inbox := by
  unfold quantizeBody; cases s.latch.outBpp <;> rfl
@[simp] theorem quantizeBody_reply (s : State) : (quantizeBody s).reply = s.reply := by
  unfold quantizeBody; cases s.latch.outBpp <;> rfl
@[simp] theorem quantizeBody_touched (s : State) : (quantizeBody s).touched = s.touched := by
  unfold quantizeBody; cases s.latch.outBpp <;> rfl
@[simp] theorem quantizeBody_freeCount (s : State) : (quantizeBody s).freeCount = s.freeCount := by
  unfold quantizeBody; cases s.latch.outBpp <;> rfl
@[simp] theorem quantizeBody_status (s : State) : (quantizeBody s).status =
    { s.status with pk := match s.latch.outBpp with | .one => .level1 | .four => .level4 } := by
  unfold quantizeBody; cases s.latch.outBpp <;> rfl
@[simp] theorem oneBppStages_regs (s : State) : (oneBppStages s).regs = s.regs := by
  unfold oneBppStages; cases s.latch.outBpp <;> simp only []
  split <;> simp
@[simp] theorem oneBppStages_inten (s : State) : (oneBppStages s).inten = s.inten := by
  unfold oneBppStages; cases s.latch.outBpp <;> simp only []
  split <;> simp
@[simp] theorem oneBppStages_status (s : State) : (oneBppStages s).status = s.status := by
  unfold oneBppStages; cases s.latch.outBpp <;> simp only []
  split <;> simp
@[simp] theorem oneBppStages_rowSize (s : State) : (oneBppStages s).rowSize = s.rowSize := by
  unfold oneBppStages; cases s.latch.outBpp <;> simp only []
  split <;> simp
@[simp] theorem oneBppStages_outLen (s : State) : (oneBppStages s).outLen = s.outLen := by
  unfold oneBppStages; cases s.latch.outBpp <;> simp only []
  split <;> simp
@[simp] theorem oneBppStages_pend (s : State) : (oneBppStages s).pend = s.pend := by
  unfold oneBppStages; cases s.latch.outBpp <;> simp only []
  split <;> simp
@[simp] theorem oneBppStages_snap (s : State) : (oneBppStages s).snap = s.snap := by
  unfold oneBppStages; cases s.latch.outBpp <;> simp only []
  split <;> simp
@[simp] theorem oneBppStages_latch (s : State) : (oneBppStages s).latch = s.latch := by
  unfold oneBppStages; cases s.latch.outBpp <;> simp only []
  split <;> simp
@[simp] theorem oneBppStages_mem (s : State) : (oneBppStages s).mem = s.mem := by
  unfold oneBppStages; cases s.latch.outBpp <;> simp only []
  split <;> simp
@[simp] theorem oneBppStages_platform (s : State) : (oneBppStages s).platform = s.platform := by
  unfold oneBppStages; cases s.latch.outBpp <;> simp only []
  split <;> simp
@[simp] theorem oneBppStages_inbox (s : State) : (oneBppStages s).inbox = s.inbox := by
  unfold oneBppStages; cases s.latch.outBpp <;> simp only []
  split <;> simp
@[simp] theorem oneBppStages_reply (s : State) : (oneBppStages s).reply = s.reply := by
  unfold oneBppStages; cases s.latch.outBpp <;> simp only []
  split <;> simp
@[simp] theorem oneBppStages_touched (s : State) : (oneBppStages s).touched = s.touched := by
  unfold oneBppStages; cases s.latch.outBpp <;> simp only []
  split <;> simp
@[simp] theorem oneBppStages_freeCount (s : State) : (oneBppStages s).freeCount = s.freeCount := by
  unfold oneBppStages; cases s.latch.outBpp <;> simp only []
  split <;> simp

end Sys2Proof.Machine
end

