-- ==== Sys2Proof/Laws/Stages.lean ====
section
/-! SUPPORT. What each shared operation of the commands can do, said once: how a command ends, the stage requirements,
check and latch, the duties on the regions, the loops of REDUCE and of the ditherer, and the destination writes of PACK. -/

namespace Sys2Proof.Machine

/-! ## How a command goes on and ends -/

@[simp] theorem andThen_going (s : State) (f : State → Progress) : (Progress.going s).andThen f = f s := rfl
@[simp] theorem andThen_raised (e : CmdError) (s : State) (f : State → Progress) :
    (Progress.raised e s).andThen f = .raised e s := rfl
@[simp] theorem andThen_stuck (r : Fault) (f : State → Progress) : (Progress.stuck r).andThen f = .stuck r := rfl
@[simp] theorem thenDo_going (s : State) (f : State → State) : (Progress.going s).thenDo f = .going (f s) := rfl
@[simp] theorem thenDo_raised (e : CmdError) (s : State) (f : State → State) :
    (Progress.raised e s).thenDo f = .raised e s := rfl
@[simp] theorem thenDo_stuck (r : Fault) (f : State → State) : (Progress.stuck r).thenDo f = .stuck r := rfl
@[simp] theorem outcome_going (s : State) : (Progress.going s).outcome = .next (finish s) := rfl
@[simp] theorem outcome_raised (e : CmdError) (s : State) :
    (Progress.raised e s).outcome = .next (raiseError e s) := rfl
@[simp] theorem outcome_stuck (r : Fault) : (Progress.stuck r).outcome = .fault r := rfl

/-- A command that answers a next state has ended by `finish` or by an error. -/
theorem outcome_next {r : Progress} {t : State} (h : r.outcome = .next t) :
    (∃ s, r = .going s ∧ t = finish s) ∨ (∃ e s, r = .raised e s ∧ t = raiseError e s) := by
  cases r with
  | going s => exact .inl ⟨s, rfl, by injection h with h; exact h.symm⟩
  | raised e s => exact .inr ⟨e, s, rfl, by injection h with h; exact h.symm⟩
  | stuck f => cases h

/-- No command is refused. -/
theorem outcome_not_refused (r : Progress) (q : Refusal) : r.outcome ≠ .refused q := by cases r <;> simp

/-- What holds where a command goes on and where it has raised an error holds in the state it ended from. -/
def Progress.Holds (P : State → Prop) : Progress → Prop
  | .going s => P s
  | .raised _ s => P s
  | .stuck _ => True

theorem andThen_holds {P Q : State → Prop} {r : Progress} {f : State → Progress} (hr : r.Holds P)
    (hf : ∀ s, P s → (f s).Holds Q) (hq : ∀ s, P s → Q s) : (r.andThen f).Holds Q := by
  cases r with
  | going s => exact hf s hr
  | raised e s => exact hq s hr
  | stuck _ => trivial

/-- What `finish` and every error keep holds after a command from whose end it holds. -/
theorem outcome_holds {P : State → Prop} {r : Progress} {t : State} (hr : r.Holds P) (h : r.outcome = .next t)
    (hf : ∀ s, P s → P (finish s)) (he : ∀ e s, P s → P (raiseError e s)) : P t := by
  rcases outcome_next h with ⟨s, rfl, rfl⟩ | ⟨e, s, rfl, rfl⟩
  · exact hf s hr
  · exact he e s hr

/-! ## Stage requirements (R76) -/

theorem requireLumaForOneBpp_met {s : State} (hk : s.status.pk = .luma8) (hb : s.latch.outBpp = .one) :
    requireLumaForOneBpp s = .going s := by simp [requireLumaForOneBpp, hk, hb]

theorem requireLumaForOneBpp_unmet {s : State} (h : ¬ (s.status.pk = .luma8 ∧ s.latch.outBpp = .one)) :
    requireLumaForOneBpp s = .raised .sequence s := by
  unfold requireLumaForOneBpp
  split
  · rw [if_neg (fun hb => h ⟨‹_›, hb⟩)]
  · rfl

theorem requireLuma_met {s : State} (hk : s.status.pk = .luma8) : requireLuma s = .going s := by
  simp [requireLuma, hk]

theorem requireLuma_unmet {s : State} (hk : s.status.pk ≠ .luma8) : requireLuma s = .raised .sequence s := by
  simp [requireLuma, hk]

theorem requireLevels_met {s : State} (hk : s.status.pk = .level1 ∨ s.status.pk = .level4) :
    requireLevels s = .going s := by simp [requireLevels, hk]

theorem requireLevels_unmet {s : State} (hk : ¬ (s.status.pk = .level1 ∨ s.status.pk = .level4)) :
    requireLevels s = .raised .sequence s := by simp [requireLevels, hk]

/-- What the duty on the source region can do: stop, or go on with the same state (R46). -/
theorem requireSourceClear_cases (s : State) :
    (requireSourceClear s = .stuck .regionOverlapsWindow
        ∧ overlapsWindow s.platform s.latch.srcBase.toNat (sourceLength s.latch) = true)
      ∨ (requireSourceClear s = .going s
        ∧ overlapsWindow s.platform s.latch.srcBase.toNat (sourceLength s.latch) = false) := by
  unfold requireSourceClear
  cases ho : overlapsWindow s.platform s.latch.srcBase.toNat (sourceLength s.latch)
  · exact .inr ⟨by simp, rfl⟩
  · exact .inl ⟨by simp, rfl⟩

/-- What the duty on the destination region can do: stop, or go on with the same state (R46). -/
theorem requireDestClear_cases (s : State) :
    (requireDestClear s = .stuck .regionOverlapsWindow
        ∧ overlapsWindow s.platform s.latch.dstBase.toNat s.latch.outLen.toNat = true)
      ∨ (requireDestClear s = .going s
        ∧ overlapsWindow s.platform s.latch.dstBase.toNat s.latch.outLen.toNat = false) := by
  unfold requireDestClear
  cases ho : overlapsWindow s.platform s.latch.dstBase.toNat s.latch.outLen.toNat
  · exact .inr ⟨by simp, rfl⟩
  · exact .inl ⟨by simp, rfl⟩

/-- The three requirements leave the state alone. -/
theorem require_holds {P : State → Prop} {s : State} (h : P s) :
    (requireLumaForOneBpp s).Holds P ∧ (requireLuma s).Holds P ∧ (requireLevels s).Holds P := by
  refine ⟨?_, ?_, ?_⟩
  · unfold requireLumaForOneBpp; split
    · split <;> exact h
    · exact h
  · unfold requireLuma; split <;> exact h
  · unfold requireLevels; split <;> exact h

/-! ## Check and latch (R81, R82) -/

theorem checkAndLatch_ok {s : State} {L : Latch} (h : latchOf s.platform.planeCapacity s.snap = .ok L) :
    checkAndLatch s = .going (writeLatch L s) := by simp [checkAndLatch, h]

theorem checkAndLatch_error {s : State} {e : CmdError} (h : latchOf s.platform.planeCapacity s.snap = .error e) :
    checkAndLatch s = .raised e s := by simp [checkAndLatch, h]

/-- What the start of a CONVERT can do: raise the error of a failing check, stop where the destination region overlaps
the register window, or go on with the latch written (R46, R81, R82, R112). -/
theorem startConversion_cases (s : State) :
    (∃ e, latchOf s.platform.planeCapacity s.snap = .error e ∧ startConversion s = .raised e s)
      ∨ (∃ L, latchOf s.platform.planeCapacity s.snap = .ok L
        ∧ ((startConversion s = .stuck .regionOverlapsWindow
            ∧ overlapsWindow s.platform L.dstBase.toNat L.outLen.toNat = true)
          ∨ (startConversion s = .going (writeLatch L s)
            ∧ overlapsWindow s.platform L.dstBase.toNat L.outLen.toNat = false))) := by
  unfold startConversion
  cases hl : latchOf s.platform.planeCapacity s.snap with
  | error e => exact .inl ⟨e, rfl, by rw [checkAndLatch_error hl, andThen_raised]⟩
  | ok L =>
    refine .inr ⟨L, rfl, ?_⟩
    rw [checkAndLatch_ok hl, andThen_going]
    exact requireDestClear_cases (writeLatch L s)

/-- A latch that passes the checks of R81 comes from a legal configuration word, percentages up to 100, positive
dimensions and a plane that fits. -/
theorem latchOf_ok {cap : Nat} {r : ConvRegs} {L : Latch} (h : latchOf cap r = .ok L) :
    ∃ f, decodeConfig r.config = some f ∧ r.brightness.toNat ≤ 100 ∧ r.contrast.toNat ≤ 100
      ∧ 1 ≤ signedWord r.width ∧ 1 ≤ signedWord r.height
      ∧ planeWidthOf f.outBpp (signedWord r.width).toNat * (signedWord r.height).toNat ≤ cap
      ∧ L = makeLatch f r (signedWord r.width).toNat (signedWord r.height).toNat := by
  unfold latchOf at h
  split at h
  · cases h
  · rename_i f hf
    split at h
    · cases h
    · split at h
      · cases h
      · split at h
        · cases h
        · injection h with h
          exact ⟨f, hf, by omega, by omega, by omega, by omega, by omega, h.symm⟩

/-- The only errors of check and latch. -/
theorem latchOf_error {cap : Nat} {r : ConvRegs} {e : CmdError} (h : latchOf cap r = .error e) :
    e = .badConfig ∨ e = .badDim := by
  unfold latchOf at h
  split at h
  · injection h with h; exact .inl h.symm
  · split at h
    · injection h with h; exact .inl h.symm
    · split at h
      · injection h with h; exact .inr h.symm
      · split at h
        · injection h with h; exact .inr h.symm
        · cases h

/-! ## REDUCE's loops (R85) -/

/-- What REDUCE's loops do to the plane when no read fails: cell `P[x, y]` holds the value of its turn, and the places
outside the plane are as before. -/
theorem reducedPlane_ok {s : State} (hp : Memory.wf s.plane = true) (v : Nat → Nat → Byte)
    (hv : ∀ x y, x < s.latch.pw → y < s.latch.ph → reducedCell s x y = some (v x y)) :
    (reducedPlane s).2 = false ∧ Memory.wf (reducedPlane s).1 = true
      ∧ (∀ x y, x < s.latch.pw → y < s.latch.ph → planeGet (reducedPlane s).1 s.latch.pw x y = v x y)
      ∧ (∀ j, s.latch.pw * s.latch.ph ≤ j → Memory.read (reducedPlane s).1 j = Memory.read s.plane j) := by
  have key := forCells_induct (w := s.latch.pw) (h := s.latch.ph) (f := reduceCell s) (s := (s.plane, false))
    (fun n a => a.2 = false ∧ Memory.wf a.1 = true
      ∧ (∀ x y, x < s.latch.pw → y < s.latch.ph → cellIndex s.latch.pw x y < n →
          planeGet a.1 s.latch.pw x y = v x y)
      ∧ (∀ j, s.latch.pw * s.latch.ph ≤ j → Memory.read a.1 j = Memory.read s.plane j))
    ⟨rfl, hp, fun _ _ _ _ h => absurd h (Nat.not_lt_zero _), fun _ _ => rfl⟩ ?_
  · exact ⟨key.1, key.2.1, fun x y hx hy => key.2.2.1 x y hx hy (cellIndex_lt hx hy), key.2.2.2⟩
  · rintro x y a hx hy ⟨ha, hw, hc, ho⟩
    have e : reduceCell s x y a = (planeSet a.1 s.latch.pw x y (v x y), false) := by
      simp [reduceCell, ha, hv x y hx hy]
    rw [e]
    refine ⟨rfl, wf_planeSet hw _ _ _ _, fun x' y' hx' hy' hlt => ?_, fun j hj => ?_⟩
    · rw [planeGet_planeSet hw _ hx hx']
      by_cases e' : x' = x ∧ y' = y
      · rw [if_pos e', e'.1, e'.2]
      · rw [if_neg e']
        have : cellIndex s.latch.pw x' y' ≠ cellIndex s.latch.pw x y :=
          fun h' => e' ((cellIndex_inj hx' hx).1 h')
        exact hc x' y' hx' hy' (by omega)
    · rw [read_planeSet_outside _ hx hy hj, ho j hj]

theorem reduceCell_failed {s : State} {x y : Nat} {a : Memory × Bool} (h : a.2 = true) : reduceCell s x y a = a := by
  simp [reduceCell, h]

/-- One failing read anywhere in the image is noticed (R85). -/
theorem reducedPlane_failed {s : State} {x y : Nat} (hx : x < s.latch.pw) (hy : y < s.latch.ph)
    (h : reducedCell s x y = none) : (reducedPlane s).2 = true := by
  have key := forCells_induct (w := s.latch.pw) (h := s.latch.ph) (f := reduceCell s) (s := (s.plane, false))
    (fun n a => cellIndex s.latch.pw x y < n → a.2 = true) (fun h => absurd h (Nat.not_lt_zero _)) ?_
  · exact key (cellIndex_lt hx hy)
  · intro x' y' a hx' hy' ih hlt
    by_cases ha : a.2 = true
    · rw [reduceCell_failed ha]; exact ha
    · by_cases e : cellIndex s.latch.pw x y = cellIndex s.latch.pw x' y'
      · obtain ⟨rfl, rfl⟩ := (cellIndex_inj hx hx').1 e
        simp [reduceCell, ha, h]
      · exact absurd (ih (by omega)) ha

/-- REDUCE's loops keep the canonical form and stay inside a buffer the plane fits in, whether or not a read fails. -/
theorem reducedPlane_keeps {s : State} {n : Nat} (hn : s.latch.pw * s.latch.ph ≤ n) (hp : Memory.wf s.plane = true)
    (hb : Memory.below n s.plane = true) :
    Memory.wf (reducedPlane s).1 = true ∧ Memory.below n (reducedPlane s).1 = true := by
  refine forCells_keeps (fun a : Memory × Bool => Memory.wf a.1 = true ∧ Memory.below n a.1 = true) ⟨hp, hb⟩ ?_
  rintro x y a hx hy ⟨hw, hl⟩
  unfold reduceCell
  split
  · exact ⟨hw, hl⟩
  · split
    · exact ⟨hw, hl⟩
    · exact ⟨wf_planeSet hw _ _ _ _, below_planeSet _ hx hy hn hl⟩

/-- What `ReduceBody()` can do: stop where the spec defines nothing, fail with `BUS_READ`, or leave LUMA8 (R46, R85). -/
theorem reduceBody_cases (s : State) :
    (reduceBody s = .stuck .regionOverlapsWindow
        ∧ overlapsWindow s.platform s.latch.srcBase.toNat (sourceLength s.latch) = true)
      ∨ (reduceBody s = .raised .busRead (withReducedPlane (reducedPlane s).1 s) ∧ (reducedPlane s).2 = true
        ∧ overlapsWindow s.platform s.latch.srcBase.toNat (sourceLength s.latch) = false)
      ∨ (reduceBody s = .going { withReducedPlane (reducedPlane s).1 s with status := { s.status with pk := .luma8 } }
        ∧ (reducedPlane s).2 = false
        ∧ overlapsWindow s.platform s.latch.srcBase.toNat (sourceLength s.latch) = false) := by
  rcases requireSourceClear_cases s with ⟨h, ho⟩ | ⟨h, ho⟩
  · exact .inl ⟨by rw [reduceBody, h, andThen_stuck], ho⟩
  · rw [reduceBody, h, andThen_going]
    unfold fillPlane
    cases hr : (reducedPlane s).2
    · exact .inr (.inr ⟨by simp, rfl, ho⟩)
    · exact .inr (.inl ⟨by simp, rfl, ho⟩)

/-! ## The ditherer (R95) -/

/-- Floyd-Steinberg keeps the canonical form, stays inside a buffer the plane fits in, and leaves the places outside the
plane alone. -/
theorem floydSteinberg_keeps {w h n : Nat} {p : Memory} (hn : w * h ≤ n) (hp : Memory.wf p = true)
    (hb : Memory.below n p = true) :
    Memory.wf (floydSteinberg w h p) = true ∧ Memory.below n (floydSteinberg w h p) = true
      ∧ (∀ j, w * h ≤ j → Memory.read (floydSteinberg w h p) j = Memory.read p j) := by
  have hs : ∀ (q : Memory) (e k i j : Int),
      (Memory.wf q = true ∧ Memory.below n q = true ∧ ∀ a, w * h ≤ a → Memory.read q a = Memory.read p a) →
      (Memory.wf (spread w h e k i j q) = true ∧ Memory.below n (spread w h e k i j q) = true
        ∧ ∀ a, w * h ≤ a → Memory.read (spread w h e k i j q) a = Memory.read p a) := by
    rintro q e k i j ⟨h1, h2, h3⟩
    unfold spread
    split
    · have hi : i.toNat < w := by omega
      have hj : j.toNat < h := by omega
      exact ⟨wf_planeSet h1 _ _ _ _, below_planeSet _ hi hj hn h2,
        fun a ha => by rw [read_planeSet_outside _ hi hj ha, h3 a ha]⟩
    · exact ⟨h1, h2, h3⟩
  refine forCells_keeps
    (fun q : Memory => Memory.wf q = true ∧ Memory.below n q = true
      ∧ ∀ a, w * h ≤ a → Memory.read q a = Memory.read p a)
    ⟨hp, hb, fun _ _ => rfl⟩ ?_
  rintro x y q hx hy ⟨h1, h2, h3⟩
  unfold floydCell spreadAll
  refine hs _ _ _ _ _ (hs _ _ _ _ _ (hs _ _ _ _ _ (hs _ _ _ _ _ ⟨wf_planeSet h1 _ _ _ _, ?_, fun a ha => ?_⟩)))
  · exact below_planeSet _ hx hy hn h2
  · rw [read_planeSet_outside _ hx hy ha, h3 a ha]

/-- The plane after `DitherBody()`, by method. -/
theorem ditherBody_plane (s : State) : (ditherBody s).plane =
    match s.latch.dither with
    | .none => s.plane
    | .floyd => floydSteinberg s.latch.pw s.latch.ph s.plane
    | .ordered => ordered s.platform s.latch.pw s.latch.ph s.plane := by
  unfold ditherBody; cases s.latch.dither <;> rfl

/-- The plane after `QuantizeBody()`, by depth. -/
theorem quantizeBody_plane (s : State) : (quantizeBody s).plane =
    planeMap s.latch.pw s.latch.ph
      (fun _ _ v => match s.latch.outBpp with | .one => quantizeOne v | .four => quantizeFour v) s.plane := by
  unfold quantizeBody; cases s.latch.outBpp <;> rfl

/-! ## The destination writes (R106) -/

/-- Different bytes of a region no longer than the memory space have different addresses. -/
theorem destAddress_inj {L : Latch} {i j : Nat} (hi : i < memorySpace) (hj : j < memorySpace)
    (h : portAddress (destAddress L i) = portAddress (destAddress L j)) : i = j := by
  unfold portAddress destAddress memorySpace at *
  omega

theorem outLen_le_memorySpace (L : Latch) : L.outLen.toNat < memorySpace := L.outLen.isLt

/-- What the destination writes do: byte `i` holds `f i`, every other byte is as before, and the canonical form and
the bounds of the memory space are kept. -/
theorem storeDest_spec (L : Latch) (f : Nat → Byte) {m : Memory} (h : Memory.wf m = true) :
    Memory.wf (storeDest L f m) = true
      ∧ (∀ i, i < L.outLen.toNat → Memory.read (storeDest L f m) (portAddress (destAddress L i)) = f i)
      ∧ (∀ a, (∀ i, i < L.outLen.toNat → a ≠ portAddress (destAddress L i)) →
          Memory.read (storeDest L f m) a = Memory.read m a) := by
  have key := forRange_induct (n := L.outLen.toNat) (f := fun i m => portWrite m (destAddress L i) (f i)) (s := m)
    (fun n q => Memory.wf q = true
      ∧ (∀ i, i < n → i < L.outLen.toNat → Memory.read q (portAddress (destAddress L i)) = f i)
      ∧ (∀ a, (∀ i, i < L.outLen.toNat → a ≠ portAddress (destAddress L i)) → Memory.read q a = Memory.read m a))
    ⟨h, fun _ hi _ => absurd hi (Nat.not_lt_zero _), fun _ _ => rfl⟩ ?_
  · exact ⟨key.1, fun i hi => key.2.1 i hi hi, key.2.2⟩
  · rintro n q hn ⟨hq, hc, ho⟩
    refine ⟨wf_portWrite hq _ _, fun i hi hl => ?_, fun a ha => ?_⟩
    · unfold portWrite
      rw [Memory.read_write hq]
      by_cases e : i = n
      · rw [e, if_pos rfl]
      · rw [if_neg, hc i (by omega) hl]
        have := outLen_le_memorySpace L
        exact fun h' => e (destAddress_inj (by omega) (by omega) h')
    · unfold portWrite
      rw [Memory.read_write_ne _ _ (ha n hn), ho a ha]

theorem storeDest_below (L : Latch) (f : Nat → Byte) {m : Memory} (h : Memory.below memorySpace m = true) :
    Memory.below memorySpace (storeDest L f m) = true :=
  forRange_induct (fun _ q => Memory.below memorySpace q = true) h (fun _ _ _ hq => below_portWrite hq _ _)

/-- What the destination writes of `PackBody()` can do: stop where the spec defines nothing, fail with `BUS_WRITE` and
leave free bytes, or leave the packed bytes and release the plane (R46, R105, R106). -/
theorem writePacked_cases (out : List Byte) (s : State) :
    (writePacked out s = .stuck .regionOverlapsWindow
        ∧ overlapsWindow s.platform s.latch.dstBase.toNat s.latch.outLen.toNat = true)
      ∨ (writePacked out s = .raised .busWrite { s with
            mem := storeDest s.latch (fun i => Config.freeByte (s.freeCount + i)) s.mem
            freeCount := s.freeCount + s.latch.outLen.toNat }
        ∧ destOK s = false
        ∧ overlapsWindow s.platform s.latch.dstBase.toNat s.latch.outLen.toNat = false)
      ∨ (writePacked out s = .going { s with
            mem := storeDest s.latch (destByte s out) s.mem
            status := { s.status with pk := .empty }
            freeCount := s.freeCount + s.latch.outLen.toNat }
        ∧ destOK s = true
        ∧ overlapsWindow s.platform s.latch.dstBase.toNat s.latch.outLen.toNat = false) := by
  rcases requireDestClear_cases s with ⟨h, ho⟩ | ⟨h, ho⟩
  · exact .inl ⟨by rw [writePacked, h, andThen_stuck], ho⟩
  · rw [writePacked, h, andThen_going]
    unfold writeDest
    cases hd : destOK s
    · exact .inr (.inl ⟨by simp, rfl, ho⟩)
    · exact .inr (.inr ⟨by simp, rfl, ho⟩)

/-- Every destination byte's write returns `OK`, spelled out. -/
theorem destOK_iff (s : State) :
    destOK s = true ↔ ∀ i, i < s.latch.outLen.toNat → portWriteOK s (destAddress s.latch i) = true := by
  simp [destOK, List.all_eq_true, List.mem_range]

/-- The layout that `L.OUT_BPP` and `L.SCAN` select. -/
theorem packBody_eq (s : State) : packBody s = packWith (layoutOf s.latch.outBpp s.latch.scan) s := rfl

end Sys2Proof.Machine
end

