-- ==== Sys2Proof/Tests/Slice0.lean ====
section
/-! SUPPORT. Tests. The expected values come from spec/95_test_vectors.md (V1 to V11, P1 to P7) or are worked out by hand
from the rules named. The last part shows, for each obligation with hypotheses, a concrete case that meets them. -/

namespace Sys2Proof.Tests

open Sys2Proof Sys2Proof.Machine

/-! ## Small cases -/

/-- Bytes from numbers. -/
def bytes (l : List Nat) : List Byte := l.map (BitVec.ofNat 8)

/-- Memory, or a plane buffer, with these bytes from `a` upward. -/
def at_ (a : Nat) (l : List Nat) : Memory := memSetup a (bytes l) []

/-- `n` bytes from `a` upward. -/
def get (m : Memory) (a n : Nat) : List Nat := (List.range n).map (fun i => (Memory.read m (a + i)).toNat)

/-- The host's registers: this configuration and size, source at 0x1000, destination at 0x2000. -/
def regsOf (config w h : Nat) : ConvRegs :=
  { ConvRegs.reset with
    config := BitVec.ofNat 32 config, width := BitVec.ofNat 32 w, height := BitVec.ofNat 32 h,
    srcBase := 0x1000#32, dstBase := 0x2000#32 }

/-- The latch of those registers. -/
def latch (config w h : Nat) : Latch :=
  match latchOf 1048576 (regsOf config w h) with
  | .ok L => L
  | .error _ => Latch.reset

/-- The command `word` accepted with those registers, `m` in memory. -/
def asked (word config w h : Nat) (m : Memory) : State :=
  { State.reset with
    snap := regsOf config w h, pend := BitVec.ofNat 32 word, mem := m, status := { Status.reset with busy := true } }

/-- The stage command `word` accepted, with that latch and the plane `p` of kind `k`. -/
def staged (word config w h : Nat) (k : PlaneKind) (p : List Nat) : State :=
  { State.reset with
    latch := latch config w h, rowSize := (latch config w h).rowSize, outLen := (latch config w h).outLen,
    pend := BitVec.ofNat 32 word, plane := at_ 0 p, status := { Status.reset with busy := true, pk := k } }

/-- The outcome is a next state that passes `p`. -/
def gives (o : Host.Outcome State Fault Refusal) (p : State → Bool) : Bool :=
  match o with
  | .next t => p t
  | .fault _ => false
  | .refused _ => false

theorem next_of_gives {o : Host.Outcome State Fault Refusal} {p : State → Bool} (h : gives o p = true) :
    ∃ t, o = .next t ∧ p t = true := by
  cases o with
  | next t => exact ⟨t, rfl, h⟩
  | fault r => cases h
  | refused r => cases h

/-- The status word and the plane's first cells after a command. -/
def ends (i : Instr) (s : State) (status : Nat) (plane : List Nat) : Bool :=
  gives (exec i s) (fun t => (statusWord t.status).toNat == status && get t.plane 0 plane.length == plane)

/-- The status word and the bytes at 0x2000 after a command. -/
def stores (i : Instr) (s : State) (status : Nat) (out : List Nat) : Bool :=
  gives (exec i s) (fun t => (statusWord t.status).toNat == status && get t.mem 0x2000 out.length == out)

/-! ## Well-formedness -/

/-- The one check there is: an ILLEGAL that holds a command's word is refused. -/
theorem test_wf_refuses : (Instr.illegal 0x00000003#32).wellFormed = false
    ∧ (Instr.illegal 0x00000006#32).wellFormed = false ∧ (Instr.illegal 0x00000000#32).wellFormed = false := by decide

theorem test_wf_accepts : (Instr.illegal 0x00000007#32).wellFormed = true
    ∧ (Instr.illegal 0x00000010#32).wellFormed = true ∧ (Instr.illegal 0xFFFFFFFF#32).wellFormed = true
    ∧ Instr.pack1v.wellFormed = true := by decide

/-! ## Decoding: words written from R67 and V1 -/

theorem test_decode_commands :
    decode 0b00000000000000000000000000000000#32 = .nop ∧ decode 0b00000000000000000000000000000001#32 = .convert
    ∧ decode 0b00000000000000000000000000000010#32 = .reduce ∧ decode 0b00000000000000000000000000000011#32 = .adjust
    ∧ decode 0b00000000000000000000000000000100#32 = .dither
    ∧ decode 0b00000000000000000000000000000101#32 = .quantize
    ∧ decode 0b00000000000000000000000000000110#32 = .pack := by decide

/-- A variant's word is its command's (R68). -/
theorem test_decode_variants :
    [Instr.ditherNone, .ditherFloyd, .ditherOrdered].map encode = [0x4#32, 0x4#32, 0x4#32]
    ∧ [Instr.quantize1, .quantize4].map encode = [0x5#32, 0x5#32]
    ∧ [Instr.pack4h, .pack4v, .pack1h, .pack1v].map encode = [0x6#32, 0x6#32, 0x6#32, 0x6#32] := by decide

theorem test_decode_illegal :
    [0x00000007#32, 0x0000000F#32, 0x00000010#32, 0x00000016#32, 0x80000001#32, 0xFFFFFFFF#32].map decode
      = [.illegal 0x00000007#32, .illegal 0x0000000F#32, .illegal 0x00000010#32, .illegal 0x00000016#32,
         .illegal 0x80000001#32, .illegal 0xFFFFFFFF#32] := by decide

theorem test_decode_truncated : decodeBytes [0x01#8, 0x00#8] = .error (.truncated 2) := rfl

theorem test_decodeTableWord : decodeTableWord 32 5 = some .quantize
    ∧ decodeTableWord 32 0x80000001 = some (.illegal 0x80000001#32) := by decide

/-- V1: the legal configuration words. -/
theorem test_config_legal :
    decodeConfig 0x00180041#32 = some ⟨.one, .horizontal, .little, .floyd, false, .b24⟩
    ∧ decodeConfig 0x00200051#32 = some ⟨.one, .vertical, .little, .floyd, false, .b32⟩
    ∧ decodeConfig 0x002001B1#32 = some ⟨.one, .vertical, .big, .ordered, true, .b32⟩
    ∧ decodeConfig 0x00180044#32 = some ⟨.four, .horizontal, .little, .floyd, false, .b24⟩
    ∧ decodeConfig 0x00200134#32 = some ⟨.four, .vertical, .big, .none, true, .b32⟩
    ∧ encodeConfig ⟨.one, .horizontal, .big, .ordered, false, .b24⟩ = 0x001800A1#32 := by decide

/-- V1: the illegal configuration words. -/
theorem test_config_illegal :
    [0x00000000#32, 0x00180002#32, 0x001800C1#32, 0x00100001#32, 0x00180201#32, 0x01180001#32].map decodeConfig
      = [none, none, none, none, none, none] := by decide

/-! ## Arithmetic -/

/-- V2. -/
theorem test_rowSize_V2 : rowSizeOf 1 3 = 4 ∧ rowSizeOf 3 3 = 12 ∧ rowSizeOf 5 3 = 16 ∧ rowSizeOf 10 3 = 32
    ∧ rowSizeOf 7 4 = 28 := by decide

/-- V3, in the order R, G, B. -/
theorem test_luma_V3 : luma 255#8 0#8 0#8 = 76#8 ∧ luma 0#8 255#8 0#8 = 149#8 ∧ luma 0#8 0#8 255#8 = 29#8
    ∧ luma 1#8 1#8 1#8 = 1#8 ∧ luma 0#8 72#8 24#8 = 45#8 ∧ luma 48#8 32#8 16#8 = 34#8 := by decide

/-- V4. -/
theorem test_adjust_V4 : adjustValue 128#8 60 70 = 199#8 ∧ adjustValue 100#8 75 25 = 177#8
    ∧ adjustValue 50#8 30 80 = 0#8 ∧ adjustValue 245#8 0 100 = 0#8 ∧ adjustValue 20#8 0 14 = 26#8
    ∧ adjustValue 127#8 50 100 = 126#8 ∧ adjustValue 200#8 50 100 = 255#8 ∧ adjustValue 0#8 50 0 = 127#8 := by decide

/-- R98: the default matrix is the recursive one, built from `[[0, 2], [3, 1]]`. -/
theorem test_default_bayer : (List.range 64).all (fun k =>
    let quad := fun b => [0, 2, 3, 1].getD (2 * (k / 8 / b % 2) + k % 8 / b % 2) 0
    (bayerAt defaultPlatform (k % 8) (k / 8)) == 16 * quad 1 + 4 * quad 2 + quad 4) = true := by decide

/-! ## The commands -/

/-- V10: NOP while idle with DONE set, and while a command runs. -/
theorem test_nop : exec .nop { State.reset with status := { Status.reset with done := true } }
      = .next { State.reset with status := { Status.reset with done := true } }
    ∧ gives (exec .nop (staged 5 0x00180001 1 1 .luma8 [200]))
        (fun t => (statusWord t.status).toNat == 0x109 && t.pend == 5#32) = true := by
  exact ⟨rfl, by decide⟩

/-- P3: odd width, 4 bpp vertical, big order, invert, 32-bit source. -/
theorem test_convert_P3 :
    stores .convert (asked 1 0x00200134 3 3 (at_ 0x1000 [0x70, 0x70, 0x70, 0, 0x80, 0x80, 0x80, 0, 0x90, 0x90, 0x90, 0,
        0x40, 0x40, 0x40, 0, 0x50, 0x50, 0x50, 0, 0x60, 0x60, 0x60, 0, 0x10, 0x10, 0x10, 0, 0x20, 0x20, 0x20, 0, 0x30,
        0x30, 0x30, 0]))
      2 [0xBE, 0xF8, 0xAD, 0xF7, 0x9C, 0xF6, 0xFF, 0xFF] = true := by decide

/-- P2 as one CONVERT: 1 bpp vertical, Floyd-Steinberg. -/
theorem test_convert_P2 :
    stores .convert (asked 1 0x00200051 3 2 (at_ 0x1000 [0xFF, 0, 0, 0xFF, 0x7F, 0x7F, 0x7F, 0xFF, 0xC8, 0xC8, 0xC8,
        0xFF, 0x7F, 0x7F, 0x7F, 0xFF, 0x7F, 0x7F, 0x7F, 0xFF, 0, 0, 0xFF, 0xFF])) 2 [0x00, 0x03, 0x02] = true := by
  decide

/-- P2's REDUCE. -/
theorem test_reduce_P2 :
    ends .reduce (asked 2 0x00200051 3 2 (at_ 0x1000 [0xFF, 0, 0, 0xFF, 0x7F, 0x7F, 0x7F, 0xFF, 0xC8, 0xC8, 0xC8,
        0xFF, 0x7F, 0x7F, 0x7F, 0xFF, 0x7F, 0x7F, 0x7F, 0xFF, 0, 0, 0xFF, 0xFF])) 0x102 [127, 127, 76, 29, 127, 200]
      = true := by decide

/-- P4's REDUCE, with the pad column, `ROW_SIZE` and `OUT_LEN`. -/
theorem test_reduce_P4 :
    gives (exec .reduce (asked 2 0x00180004 1 1 (at_ 0x1000 [0x10, 0x20, 0x30])))
      (fun t => get t.plane 0 2 == [34, 0] && t.rowSize == 4#32 && t.outLen == 1#32
        && statusWord t.status == 0x102#32) = true := by decide

/-- P6's brightness 60 and contrast 70 on three cells of its first row. -/
theorem test_adjust_P6 :
    ends .adjust { staged 3 0x001800A1 3 1 .luma8 [0, 30, 90] with
        latch := { latch 0x001800A1 3 1 with b := 60, c := 70 } } 0x102 [20, 62, 146] = true := by decide

/-- V11: ADJUST with a 4-bpp latch. -/
theorem test_adjust_sequence : ends .adjust (staged 3 0x00180004 1 1 .luma8 [34, 0]) 0x144 [34, 0] = true := by
  decide

/-- P2's DITHER. -/
theorem test_dither_P2 :
    ends .dither (staged 4 0x00200051 3 2 .luma8 [127, 127, 76, 29, 127, 200]) 0x102 [0, 255, 0, 0, 255, 255] = true := by
  decide

/-- V11: DITHER with an empty plane. -/
theorem test_dither_sequence : ends .dither (staged 4 0x00180041 1 1 .empty [10]) 0x44 [10] = true := by decide

/-- R94. -/
theorem test_ditherNone : ends .ditherNone (staged 4 0x00180001 2 1 .luma8 [10, 200]) 0x102 [10, 200] = true := by
  decide

/-- V6. -/
theorem test_ditherFloyd_rows :
    ends .ditherFloyd (staged 4 0x00180041 4 1 .luma8 [100, 200, 50, 250]) 0x102 [0, 255, 0, 255] = true
    ∧ ends .ditherFloyd (staged 4 0x00180041 1 2 .luma8 [127, 127]) 0x102 [0, 255] = true := by decide

/-- V6: 4×4, all 50. -/
theorem test_ditherFloyd_square :
    ends .ditherFloyd (staged 4 0x00180041 4 4 .luma8 (List.replicate 16 50)) 0x102
      [0, 0, 0, 0, 0, 0, 255, 0, 0, 0, 0, 0, 0, 255, 0, 0] = true := by decide

/-- V7. -/
theorem test_ditherOrdered :
    ends .ditherOrdered (staged 4 0x00180081 4 2 .luma8 (List.replicate 8 20)) 0x102 [255, 0, 255, 0, 0, 255, 0, 0]
      = true := by decide

/-- P2's QUANTIZE, and V11: QUANTIZE of a LEVEL1 plane. -/
theorem test_quantize :
    ends .quantize (staged 5 0x00200051 3 2 .luma8 [0, 255, 0, 0, 255, 255]) 0x202 [0, 1, 0, 0, 1, 1] = true
    ∧ ends .quantize (staged 5 0x00200051 2 1 .level1 [0, 1]) 0x244 [0, 1] = true := by decide

/-- V5. -/
theorem test_quantize1 :
    ends .quantize1 (staged 5 0x00180001 4 1 .luma8 [34, 127, 128, 255]) 0x202 [0, 0, 1, 1] = true := by decide

/-- V5. -/
theorem test_quantize4 :
    ends .quantize4 (staged 5 0x00180004 8 1 .luma8 [0, 15, 16, 34, 127, 239, 240, 255]) 0x302 [0, 0, 1, 2, 7, 14, 15, 15]
      = true := by decide

/-- P2's PACK, and V11: PACK of a LUMA8 plane. -/
theorem test_pack :
    stores .pack (staged 6 0x00200051 3 2 .level1 [0, 1, 0, 0, 1, 1]) 2 [0x00, 0x03, 0x02] = true
    ∧ stores .pack (staged 6 0x00200051 3 2 .luma8 [0, 1, 0, 0, 1, 1]) 0x144 [0, 0, 0] = true := by decide

/-- V8 (S7), both orders. -/
theorem test_pack4h :
    stores .pack4h (staged 6 0x00180004 4 2 .level4 [0, 5, 10, 15, 3, 8, 12, 1]) 2 [0x05, 0xAF, 0x38, 0xC1] = true
    ∧ stores .pack4h (staged 6 0x00180024 4 2 .level4 [0, 5, 10, 15, 3, 8, 12, 1]) 2 [0x50, 0xFA, 0x83, 0x1C] = true := by
  decide

/-- V8 and V9: odd width and height, plain and inverted. -/
theorem test_pack4v :
    stores .pack4v (staged 6 0x00180014 3 3 .level4 [1, 2, 3, 0, 4, 5, 6, 0, 7, 8, 9, 0]) 2
      [0x14, 0x70, 0x25, 0x80, 0x36, 0x90, 0x00, 0x00] = true
    ∧ stores .pack4v (staged 6 0x00180114 3 3 .level4 [1, 2, 3, 0, 4, 5, 6, 0, 7, 8, 9, 0]) 2
      [0xEB, 0x8F, 0xDA, 0x7F, 0xC9, 0x6F, 0xFF, 0xFF] = true := by decide

/-- V8 and V9: ten pixels, big order and inverted little order. -/
theorem test_pack1h :
    stores .pack1h (staged 6 0x00180021 10 1 .level1 [1, 0, 1, 1, 0, 0, 0, 1, 1, 1]) 2 [0x8D, 0x03] = true
    ∧ stores .pack1h (staged 6 0x00180101 10 1 .level1 [1, 0, 1, 1, 0, 0, 0, 1, 1, 1]) 2 [0x4E, 0x3F] = true := by
  decide

/-- V8: the mirrored bits of the vertical scan, both orders. -/
theorem test_pack1v :
    stores .pack1v (staged 6 0x00180011 2 3 .level1 [1, 0, 0, 1, 1, 1]) 2 [0x05, 0x06] = true
    ∧ stores .pack1v (staged 6 0x00180031 2 3 .level1 [1, 0, 0, 1, 1, 1]) 2 [0xA0, 0x60] = true := by decide

/-- P4's illegal word with a LEVEL4 plane. -/
theorem test_illegal : ends (.illegal 0x00000016#32) (staged 0x16 0x00180004 1 1 .level4 [2, 0]) 0x314 [2, 0] = true := by
  decide

/-! ## Registers and the step -/

/-- V10: `STATUS = 0x5E`, then writes of 4, 0xE and 1. -/
theorem test_status_write :
    (let t : Status := { Status.reset with done := true, err := true, ovr := true, errcode := 5#4 }
     statusWord t = 0x5E#32 ∧ statusWord (statusAfterWrite 0x4#32 t) = 0x0A#32
      ∧ statusWord (statusAfterWrite 0xE#32 t) = 0x00#32 ∧ statusWord (statusAfterWrite 0x1#32 t) = 0x5E#32) := by decide

/-- V10: the interrupt output. -/
theorem test_irq :
    irq { State.reset with status := { Status.reset with done := true }, inten := 1#3 } = true
    ∧ irq { State.reset with status := { Status.reset with done := true }, inten := 6#3 } = false
    ∧ irq { State.reset with status := { Status.reset with ovr := true }, inten := 4#3 } = true := by decide

/-- CONVERT right after reset is the next step and ends with BAD_CONFIG (R34). -/
theorem test_fetch_convert :
    gives (step (State.reset.withFetchWord 32 1)) (fun t => statusWord t.status == 0x24#32) = true := by decide

/-- The word 0 right after reset is the host's next write and changes no status. -/
theorem test_fetch_nop :
    gives (step (State.reset.withFetchWord 32 0)) (fun t => statusWord t.status == 0#32 && t.reply == some .ack) = true := by
  decide

/-! ## Witnesses: a case that meets the hypotheses of each obligation that has some -/

theorem coherent_of {config w h : Nat}
    (hd : (latch config w h).bytesPerPixel = bytesPerPixelOf (latch config w h).srcBpp ∧ 1 ≤ (latch config w h).w
      ∧ 1 ≤ (latch config w h).h ∧ (latch config w h).pw = planeWidthOf (latch config w h).outBpp (latch config w h).w
      ∧ (latch config w h).ph = (latch config w h).h ∧ (latch config w h).pw * (latch config w h).ph ≤ 1048576
      ∧ (latch config w h).b ≤ 100 ∧ (latch config w h).c ≤ 100
      ∧ (latch config w h).rowSize.toNat = rowSizeOf (latch config w h).w (latch config w h).bytesPerPixel
      ∧ (latch config w h).outLen.toNat = outLenOf (latch config w h).outBpp (latch config w h).scan (latch config w h).w
        (latch config w h).pw (latch config w h).ph) : LatchCoherent 1048576 (latch config w h) := by
  obtain ⟨h1, h2, h3, h4, h5, h6, h7, h8, h9, h10⟩ := hd
  exact ⟨h1, h2, h3, h4, h5, h6, h7, h8, h9, h10⟩

/-- Every access of the default platform completes. -/
theorem readable (L : Latch) : SourceReadable defaultPlatform L := fun _ _ _ _ _ _ => rfl

theorem writable (L : Latch) : DestWritable defaultPlatform L := fun _ _ => rfl

/-- P7's platform: the byte 0x1011 cannot be read, and no byte from 0x3002 on can be written. -/
def faulty : Platform :=
  { defaultPlatform with busFaults := [⟨.read, 0x1011, 0x1011⟩, ⟨.write, 0x3002, 0xFFFFFFFF⟩] }

/-- A small 4-bpp CONVERT or REDUCE, and the latch it gives. -/
def small (word : Nat) : State := asked word 0x00180004 3 2 (at_ 0x1000 [1, 2, 3, 4, 5, 6, 7, 8, 9, 0, 0, 0, 200])

theorem small_checks (word : Nat) : ChecksPass (small word) (latch 0x00180004 3 2) := by
  show latchOf 1048576 (regsOf 0x00180004 3 2) = .ok _
  rfl

theorem small_source : SourceClear defaultPlatform (latch 0x00180004 3 2) := by
  unfold SourceClear; decide

theorem small_dest : DestClear defaultPlatform (latch 0x00180004 3 2) := by
  unfold DestClear; decide

/-- The first and the last illegal word, and four bytes with the word they make. -/
theorem witness_CommandWordsDecode :
    7 ≤ (0x00000007#32).toNat ∧ 7 ≤ (0xFFFFFFFF#32).toNat
      ∧ (0x80000201#32).toNat
        = (0x01#8).toNat + 256 * (0x02#8).toNat + 65536 * (0x00#8).toNat + 16777216 * (0x80#8).toNat := by decide

theorem witness_DecodeEncodeAgree :
    (Instr.illegal 0x00000016#32).wellFormed = true ∧ Instr.ditherFloyd.wellFormed = true
      ∧ Instr.quantize4.wellFormed = true ∧ Instr.pack1h.wellFormed = true := by decide

theorem witness_ConfigWordRoundTrip : decodeConfig 0x00200051#32 = some ⟨.one, .vertical, .little, .floyd, false, .b32⟩
    ∧ (0x00200051#32 = encodeConfig ⟨.one, .vertical, .little, .floyd, false, .b32⟩) := by decide

/-- One illegal word for each condition of R60. -/
theorem witness_IllegalConfigEndsBadConfig :
    ¬ ConfigLegal (asked 2 0x00180002 1 1 []).snap.config ∧ ¬ ConfigLegal (asked 2 0x001800C1 1 1 []).snap.config
      ∧ ¬ ConfigLegal (asked 1 0x00100001 1 1 []).snap.config ∧ ¬ ConfigLegal (asked 1 0x00180201 1 1 []).snap.config
      ∧ ¬ ConfigLegal (asked 1 0x01180001 1 1 []).snap.config := by
  unfold ConfigLegal; decide

theorem witness_NopCompletes : State.reset.status.busy = false ∧ (small 2).status.busy = true := by decide

theorem witness_IllegalWordCompletes :
    (0x00000010#32).toNat / 16 ≠ 0 ∧ 7 ≤ (0x00000007#32).toNat % 16 ∧ 7 ≤ (0x0000000F#32).toNat % 16 := by decide

/-- A command pending, the machine idle, and the two ends of the range of the words. -/
theorem witness_StepRunsPendingCommand :
    ((small 2).status.busy = true ∧ (small 2).inbox = [])
      ∧ ((withInbox [.engine] (small 2)).status.busy = true ∧ (withInbox [.engine] (small 2)).inbox = .engine :: [])
      ∧ (State.reset.status.busy = false ∧ State.reset.inbox = [])
      ∧ ((withInbox [.engine] State.reset).status.busy = false ∧ (withInbox [.engine] State.reset).inbox = .engine :: [])
      ∧ (1 < 4294967296 ∧ 1 ≠ 0) ∧ (4294967295 < 4294967296 ∧ 4294967295 ≠ 0) := by
  refine ⟨⟨rfl, rfl⟩, ⟨rfl, rfl⟩, ⟨rfl, rfl⟩, ⟨rfl, rfl⟩, ?_, ?_⟩ <;> decide

theorem witness_StepRunsNopWrite :
    (withInbox [.regWrite defaultPlatform.regBase 32 0x00000000#32] State.reset).inbox
      = .regWrite (withInbox [.regWrite defaultPlatform.regBase 32 0x00000000#32] State.reset).platform.regBase 32
          0x00000000#32 :: [] := rfl

theorem witness_CmdWriteAcceptsOrOverruns :
    ((withInbox [.regWrite defaultPlatform.regBase 32 1#32] (small 2)).inbox
        = .regWrite (small 2).platform.regBase 32 1#32 :: [] ∧ (small 2).status.busy = true)
      ∧ ((withInbox [.regWrite defaultPlatform.regBase 32 0xFFFFFFFF#32] State.reset).inbox
        = .regWrite State.reset.platform.regBase 32 0xFFFFFFFF#32 :: [] ∧ State.reset.status.busy = false
        ∧ (0xFFFFFFFF#32 : Word) ≠ 0x00000000#32) := by
  refine ⟨⟨rfl, rfl⟩, rfl, rfl, ?_⟩; decide

/-- A percentage of 101; widths 0 and −1, and a plane one row too high; the largest plane that fits (V11). -/
theorem witness_CheckOrderOfReduceAndConvert :
    ¬ OperandsLegal { regsOf 0x00180004 1 1 with brightness := 101#32 }
      ∧ (OperandsLegal (regsOf 0x00180004 0 1) ∧ ¬ DimsLegal 1048576 (regsOf 0x00180004 0 1))
      ∧ (OperandsLegal (regsOf 0x00180004 0xFFFFFFFF 1) ∧ ¬ DimsLegal 1048576 (regsOf 0x00180004 0xFFFFFFFF 1))
      ∧ (OperandsLegal (regsOf 0x00180004 1023 1025) ∧ ¬ DimsLegal 1048576 (regsOf 0x00180004 1023 1025))
      ∧ (OperandsLegal (regsOf 0x00180004 1023 1024) ∧ DimsLegal 1048576 (regsOf 0x00180004 1023 1024)) := by
  unfold OperandsLegal DimsLegal ConfigLegal; decide

theorem witness_LatchHoldsSnapshotFields :
    latchOf 1048576 (regsOf 0x002001B1 1048576 1) = .ok (latch 0x002001B1 1048576 1)
      ∧ latchOf 1048576 (regsOf 0x00180004 1023 1024) = .ok (latch 0x00180004 1023 1024) := ⟨rfl, rfl⟩

theorem witness_RowSizeIsPaddedToFour : 268435456 ≤ 268435456 ∧ ((3 = 3 ∨ 3 = 4) ∧ (4 = 3 ∨ 4 = 4)) := by decide

theorem witness_OutLenCountsEveryLayout :
    (LatchCoherent 1048576 (latch 0x00180004 3 3) ∧ (latch 0x00180004 3 3).outBpp = .four
        ∧ (latch 0x00180004 3 3).scan = .horizontal)
      ∧ (LatchCoherent 1048576 (latch 0x00180014 3 3) ∧ (latch 0x00180014 3 3).outBpp = .four
        ∧ (latch 0x00180014 3 3).scan = .vertical)
      ∧ (LatchCoherent 1048576 (latch 0x00180001 9 9) ∧ (latch 0x00180001 9 9).outBpp = .one
        ∧ (latch 0x00180001 9 9).scan = .horizontal)
      ∧ (LatchCoherent 1048576 (latch 0x00180011 9 9) ∧ (latch 0x00180011 9 9).outBpp = .one
        ∧ (latch 0x00180011 9 9).scan = .vertical) :=
  ⟨⟨coherent_of (by decide), rfl, rfl⟩, ⟨coherent_of (by decide), rfl, rfl⟩,
    ⟨coherent_of (by decide), rfl, rfl⟩, coherent_of (by decide), rfl, rfl⟩

/-- A 3×2 image at 4 bpp: its last pixel, its pad column, and a place of the buffer past the plane. -/
theorem witness_ReduceCompletes :
    ChecksPass (small 2) (latch 0x00180004 3 2) ∧ SourceReadable (small 2).platform (latch 0x00180004 3 2)
      ∧ SourceClear (small 2).platform (latch 0x00180004 3 2) ∧ Memory.wf (small 2).plane = true
      ∧ (2 < (latch 0x00180004 3 2).w ∧ 1 < (latch 0x00180004 3 2).h ∧ (small 2).touched = [])
      ∧ ((latch 0x00180004 3 2).w ≤ 3 ∧ 3 < (latch 0x00180004 3 2).pw)
      ∧ (latch 0x00180004 3 2).pw * (latch 0x00180004 3 2).h ≤ 8 := by
  refine ⟨small_checks 2, readable _, small_source, rfl, ?_⟩; decide

/-- P7: one source byte cannot be read. -/
theorem witness_BusReadReleasesPlane :
    ChecksPass { asked 1 0x00180004 4 2 [] with platform := faulty } (latch 0x00180004 4 2)
      ∧ SourceClear faulty (latch 0x00180004 4 2) ∧ DestClear faulty (latch 0x00180004 4 2)
      ∧ ¬ SourceReadable faulty (latch 0x00180004 4 2) := by
  refine ⟨by rfl, by unfold SourceClear; decide, by unfold DestClear; decide, fun h => ?_⟩
  exact absurd (h 1 0 2 (by decide) (by decide) (by decide)) (by decide)

/-- Another memory that differs in a byte outside the three source bytes of the one pixel. -/
theorem witness_ReduceReadsOnlySourceBytes :
    ∀ L, ChecksPass (asked 2 0x00200001 1 1 (at_ 0x1000 [1, 2, 3, 4])) L → ∀ x y k, x < L.w → y < L.h → k < 3 →
      Memory.read (at_ 0x1000 [1, 2, 3, 9]) (portAddress (sourceAddress L x y + k))
        = Memory.read (asked 2 0x00200001 1 1 (at_ 0x1000 [1, 2, 3, 4])).mem (portAddress (sourceAddress L x y + k)) := by
  intro L h x y k hx hy hk
  obtain rfl : latch 0x00200001 1 1 = L := Except.ok.inj (show Except.ok (latch 0x00200001 1 1) = _ from h)
  obtain rfl : x = 0 := Nat.lt_one_iff.mp hx
  obtain rfl : y = 0 := Nat.lt_one_iff.mp hy
  interval_cases k <;> decide

/-- A 1-bpp plane of luminances: its last cell, and a place past it. -/
theorem witness_AdjustCompletes :
    (staged 3 0x00180001 2 1 .luma8 [10, 200]).status.pk = .luma8
      ∧ (staged 3 0x00180001 2 1 .luma8 [10, 200]).latch.outBpp = .one
      ∧ Memory.wf (staged 3 0x00180001 2 1 .luma8 [10, 200]).plane = true
      ∧ 1 < (staged 3 0x00180001 2 1 .luma8 [10, 200]).latch.pw ∧ 0 < (staged 3 0x00180001 2 1 .luma8 [10, 200]).latch.ph
      ∧ (staged 3 0x00180001 2 1 .luma8 [10, 200]).latch.pw * (staged 3 0x00180001 2 1 .luma8 [10, 200]).latch.ph ≤ 2 := by
  decide

theorem witness_AdjustIsTheRealFormula : (0 ≤ 100 ∧ 100 ≤ 100) ∧ (50 ≤ 100 ∧ 50 ≤ 100) := by decide

theorem witness_AdjustNeutralFlatAndDouble : 0 ≤ 100 ∧ 100 ≤ 100 := by decide

/-- V11: the plane empty, the depth 4, a LEVEL1 plane for QUANTIZE, a LUMA8 plane for PACK; and a REDUCE that answers. -/
theorem witness_StageRequirements :
    (Instr.ditherFloyd.core = .dither
        ∧ ¬ ((staged 4 0x00180004 1 1 .luma8 []).status.pk = .luma8
          ∧ (staged 4 0x00180004 1 1 .luma8 []).latch.outBpp = .one))
      ∧ (Instr.adjust.core = .adjust
        ∧ ¬ ((staged 3 0x00180001 1 1 .empty []).status.pk = .luma8
          ∧ (staged 3 0x00180001 1 1 .empty []).latch.outBpp = .one))
      ∧ (Instr.quantize1.core = .quantize ∧ (staged 5 0x00180001 1 1 .level1 []).status.pk ≠ .luma8)
      ∧ (Instr.pack1v.core = .pack ∧ (staged 6 0x00180001 1 1 .luma8 []).status.pk ≠ .level1
        ∧ (staged 6 0x00180001 1 1 .luma8 []).status.pk ≠ .level4) := by decide

theorem witness_StageRequirements_reduce :
    ∃ t, exec .reduce { small 2 with status := { Status.reset with busy := true, err := true, errcode := 4#4 } } = .next t
      ∧ decide (t.status.errcode = 4#4) = true := next_of_gives (by decide)

theorem witness_DitherNoneCompletes :
    (staged 4 0x00180001 2 1 .luma8 [10, 200]).status.pk = .luma8
      ∧ (staged 4 0x00180001 2 1 .luma8 [10, 200]).latch.outBpp = .one
      ∧ (staged 4 0x00180001 2 1 .luma8 [10, 200]).latch.dither = .none := by decide

theorem witness_FloydSteinbergCompletes :
    (staged 4 0x00180041 2 2 .luma8 [127, 127, 127, 127]).status.pk = .luma8
      ∧ (staged 4 0x00180041 2 2 .luma8 [127, 127, 127, 127]).latch.outBpp = .one
      ∧ (staged 4 0x00180041 2 2 .luma8 [127, 127, 127, 127]).latch.dither = .floyd
      ∧ Memory.wf (staged 4 0x00180041 2 2 .luma8 [127, 127, 127, 127]).plane = true
      ∧ 1 < (latch 0x00180041 2 2).pw ∧ 1 < (latch 0x00180041 2 2).ph
      ∧ (latch 0x00180041 2 2).pw * (latch 0x00180041 2 2).ph ≤ 4 := by decide

theorem witness_FloydSteinbergIsBinary : Memory.wf (at_ 0 [10, 200, 0, 127]) = true ∧ 1 < 2 ∧ 0 < 2 := by decide

theorem witness_OrderedDitherCompletes :
    (staged 4 0x00180081 9 1 .luma8 [20, 20]).status.pk = .luma8
      ∧ (staged 4 0x00180081 9 1 .luma8 [20, 20]).latch.outBpp = .one
      ∧ (staged 4 0x00180081 9 1 .luma8 [20, 20]).latch.dither = .ordered
      ∧ Memory.wf (staged 4 0x00180081 9 1 .luma8 [20, 20]).plane = true
      ∧ 8 * (0 % 8) + 8 % 8 < 64 ∧ 8 < (latch 0x00180081 9 1).pw ∧ 0 < (latch 0x00180081 9 1).ph
      ∧ (latch 0x00180081 9 1).pw * (latch 0x00180081 9 1).ph ≤ 9 := by decide

theorem witness_DithersFixBinaryPlanes :
    Memory.wf (at_ 0 [0, 255]) = true
      ∧ (∀ x y, x < 2 → y < 1 → planeGet (at_ 0 [0, 255]) 2 x y = 0#8 ∨ planeGet (at_ 0 [0, 255]) 2 x y = 255#8)
      ∧ (9 % 8 = 1 % 8 ∧ 15 % 8 = 7 % 8) := by
  refine ⟨by decide, fun x y hx hy => ?_, by decide⟩
  interval_cases x <;> interval_cases y <;> decide

theorem witness_QuantizeCompletes :
    ((staged 5 0x00180001 2 1 .luma8 [127, 128]).status.pk = .luma8
        ∧ Memory.wf (staged 5 0x00180001 2 1 .luma8 [127, 128]).plane = true
        ∧ (staged 5 0x00180001 2 1 .luma8 [127, 128]).latch.outBpp = .one ∧ 1 < (latch 0x00180001 2 1).pw)
      ∧ ((staged 5 0x00180004 2 1 .luma8 [239, 240]).status.pk = .luma8
        ∧ Memory.wf (staged 5 0x00180004 2 1 .luma8 [239, 240]).plane = true
        ∧ (staged 5 0x00180004 2 1 .luma8 [239, 240]).latch.outBpp = .four ∧ 1 < (latch 0x00180004 2 1).pw) := by
  decide

/-- A 4-bpp plane to pack, with the last destination byte written by the host meanwhile. -/
def packing : State := { staged 6 0x00180004 4 2 .level4 [0, 5, 10, 15, 3, 8, 12, 1] with touched := [0x2003] }

theorem outside_packing : OutsideDest (latch 0x00180004 4 2) 0x2004 := by
  intro i hi h
  have hi : i < 4 := hi
  interval_cases i <;> revert h <;> decide

theorem packing_dest : DestClear defaultPlatform (latch 0x00180004 4 2) := by unfold DestClear; decide

theorem witness_PackCompletes :
    (packing.status.pk = .level1 ∨ packing.status.pk = .level4) ∧ DestClear packing.platform packing.latch
      ∧ DestWritable packing.platform packing.latch ∧ Memory.wf packing.mem = true
      ∧ (2 < packing.latch.outLen.toNat ∧ packing.touched.contains (portAddress (destAddress packing.latch 2)) = false)
      ∧ (3 < packing.latch.outLen.toNat ∧ packing.touched.contains (portAddress (destAddress packing.latch 3)) = true)
      ∧ OutsideDest packing.latch 0x2004 := by
  refine ⟨.inr rfl, packing_dest, writable _, rfl, by decide, by decide, outside_packing⟩

/-- P7: a destination at 0x3000 whose byte 2 cannot be written. -/
theorem witness_PackBusWriteConfined :
    Instr.pack4h.core = .pack
      ∧ DestClear faulty { latch 0x00180004 4 2 with dstBase := 0x3000#32 }
      ∧ ¬ DestWritable faulty { latch 0x00180004 4 2 with dstBase := 0x3000#32 }
      ∧ OutsideDest { latch 0x00180004 4 2 with dstBase := 0x3000#32 } 0x2FFF := by
  refine ⟨rfl, by unfold DestClear; decide, fun h => ?_, fun i hi h => ?_⟩
  · exact absurd (h 2 (by decide)) (by decide)
  · have hi : i < 4 := hi
    interval_cases i <;> revert h <;> decide

/-- P7: its second CONVERT, whose source at 0x4000 can be read. -/
def unwritable : State :=
  { asked 1 0x00180004 4 2 [] with
    platform := faulty
    snap := { regsOf 0x00180004 4 2 with srcBase := 0x4000#32, dstBase := 0x3000#32 } }

theorem witness_PackBusWriteConfined_convert :
    ChecksPass unwritable { latch 0x00180004 4 2 with srcBase := 0x4000#32, dstBase := 0x3000#32 }
      ∧ SourceReadable faulty { latch 0x00180004 4 2 with srcBase := 0x4000#32, dstBase := 0x3000#32 }
      ∧ SourceClear faulty { latch 0x00180004 4 2 with srcBase := 0x4000#32, dstBase := 0x3000#32 }
      ∧ DestClear faulty { latch 0x00180004 4 2 with srcBase := 0x4000#32, dstBase := 0x3000#32 }
      ∧ ¬ DestWritable faulty { latch 0x00180004 4 2 with srcBase := 0x4000#32, dstBase := 0x3000#32 }
      ∧ Memory.wf unwritable.plane = true ∧ Memory.wf unwritable.mem = true := by
  refine ⟨by rfl, fun x y k hx hy hk => ?_, by unfold SourceClear; decide, by unfold DestClear; decide, fun h => ?_, rfl, rfl⟩
  · have hx : x < 4 := hx
    have hy : y < 2 := hy
    interval_cases x <;> interval_cases y <;> interval_cases k <;> decide
  · exact absurd (h 2 (by decide)) (by decide)

/-- The last pair of the last row, 3×3 with the pad column. -/
theorem witness_Pack4HBytes :
    LatchCoherent 1048576 (latch 0x00180024 3 3) ∧ (latch 0x00180024 3 3).outBpp = .four
      ∧ (latch 0x00180024 3 3).scan = .horizontal ∧ (latch 0x00180024 3 3).invert = false
      ∧ 1 < (latch 0x00180024 3 3).pw / 2 ∧ 2 < (latch 0x00180024 3 3).ph := by
  refine ⟨coherent_of (by decide), ?_⟩; decide

/-- The odd last pair of the pad column. -/
theorem witness_Pack4VBytes :
    LatchCoherent 1048576 (latch 0x00180014 3 3) ∧ (latch 0x00180014 3 3).outBpp = .four
      ∧ (latch 0x00180014 3 3).scan = .vertical ∧ (latch 0x00180014 3 3).invert = false
      ∧ 3 < (latch 0x00180014 3 3).pw ∧ 1 < ((latch 0x00180014 3 3).ph + 1) / 2 := by
  refine ⟨coherent_of (by decide), ?_⟩; decide

/-- The last bit, unused, of the second byte of a row of nine. -/
theorem witness_Pack1HBits :
    LatchCoherent 1048576 (latch 0x00180021 9 9) ∧ (latch 0x00180021 9 9).outBpp = .one
      ∧ (latch 0x00180021 9 9).scan = .horizontal ∧ (latch 0x00180021 9 9).invert = false
      ∧ 1 < ((latch 0x00180021 9 9).w + 7) / 8 ∧ 8 < (latch 0x00180021 9 9).ph ∧ 7 < 8 := by
  refine ⟨coherent_of (by decide), ?_⟩; decide

theorem witness_Pack1VBits :
    LatchCoherent 1048576 (latch 0x00180011 9 9) ∧ (latch 0x00180011 9 9).outBpp = .one
      ∧ (latch 0x00180011 9 9).scan = .vertical ∧ (latch 0x00180011 9 9).invert = false
      ∧ 8 < (latch 0x00180011 9 9).w ∧ 1 < ((latch 0x00180011 9 9).ph + 7) / 8 ∧ 7 < 8 := by
  refine ⟨coherent_of (by decide), ?_⟩; decide

theorem witness_InvertComplementsEveryByte :
    3 < (latch 0x00180004 4 2).outLen.toNat ∧ 1 < (latch 0x00180101 10 1).outLen.toNat := by decide

/-- A CONVERT during which the host has written a source byte of the pixel (2, 1), the last destination byte and a byte
of neither region. -/
def disturbed : State := { small 1 with touched := [0x1006, 0x2003, 0x8000] }

/-- 4 bpp: the free pixel, a pixel that is not, the pad column, and the two kinds of destination byte. -/
theorem witness_ConvertCompletes :
    ChecksPass disturbed (latch 0x00180004 3 2) ∧ SourceReadable disturbed.platform (latch 0x00180004 3 2)
      ∧ SourceClear disturbed.platform (latch 0x00180004 3 2) ∧ DestWritable disturbed.platform (latch 0x00180004 3 2)
      ∧ DestClear disturbed.platform (latch 0x00180004 3 2)
      ∧ Memory.wf disturbed.plane = true ∧ Memory.wf disturbed.mem = true
      ∧ (1 < (latch 0x00180004 3 2).w ∧ 1 < (latch 0x00180004 3 2).h ∧ [0, 1, 2].all (fun k =>
          !disturbed.touched.contains (portAddress (sourceAddress (latch 0x00180004 3 2) 1 1 + k))) = true)
      ∧ disturbed.touched.contains (portAddress (sourceAddress (latch 0x00180004 3 2) 2 1 + 0)) = true
      ∧ ((latch 0x00180004 3 2).w ≤ 3 ∧ 3 < (latch 0x00180004 3 2).pw)
      ∧ (2 < (latch 0x00180004 3 2).outLen.toNat
        ∧ disturbed.touched.contains (portAddress (destAddress (latch 0x00180004 3 2) 2)) = false)
      ∧ (3 < (latch 0x00180004 3 2).outLen.toNat
        ∧ disturbed.touched.contains (portAddress (destAddress (latch 0x00180004 3 2) 3)) = true) := by
  refine ⟨small_checks 1, readable _, small_source, writable _, small_dest, rfl, ?_, ?_⟩ <;> decide

/-- 1 bpp, with each dithering method. -/
theorem witness_ConvertCompletes_oneBpp :
    (ChecksPass (asked 1 0x00180001 2 2 []) (latch 0x00180001 2 2) ∧ SourceClear defaultPlatform (latch 0x00180001 2 2)
        ∧ DestClear defaultPlatform (latch 0x00180001 2 2) ∧ (latch 0x00180001 2 2).dither = .none)
      ∧ (ChecksPass (asked 1 0x00180041 2 2 []) (latch 0x00180041 2 2)
        ∧ SourceClear defaultPlatform (latch 0x00180041 2 2) ∧ DestClear defaultPlatform (latch 0x00180041 2 2)
        ∧ (latch 0x00180041 2 2).dither = .floyd)
      ∧ (ChecksPass (asked 1 0x00180081 2 2 []) (latch 0x00180081 2 2)
        ∧ SourceClear defaultPlatform (latch 0x00180081 2 2) ∧ DestClear defaultPlatform (latch 0x00180081 2 2)
        ∧ (latch 0x00180081 2 2).dither = .ordered)
      ∧ (1 < (latch 0x00180041 2 2).pw ∧ 1 < (latch 0x00180041 2 2).ph) := by
  refine ⟨⟨by rfl, ?_, ?_, rfl⟩, ⟨by rfl, ?_, ?_, rfl⟩, ⟨by rfl, ?_, ?_, rfl⟩, by decide⟩ <;>
    first | (unfold SourceClear; decide) | (unfold DestClear; decide)

/-- Registers whose destination's last byte is the window's first, on P7's platform. -/
def overlapping : ConvRegs := { regsOf 0x00180004 4 2 with dstBase := 0xEFFFFFFD#32 }

/-- Idle with a legal image and sticky DONE and ERR; and idle with the overlapping registers. -/
theorem witness_ConvertEqualsStageSequence :
    (({ State.reset with
          regs := regsOf 0x00180004 4 2, status := { Status.reset with done := true, err := true, errcode := 4#4 } }
          : State).status.busy = false
        ∧ ∀ L, latchOf 1048576 (regsOf 0x00180004 4 2) = .ok L → DestClear defaultPlatform L)
      ∧ (latchOf 1048576 overlapping = .ok { latch 0x00180004 4 2 with dstBase := 0xEFFFFFFD#32 }
        ∧ ¬ DestClear defaultPlatform { latch 0x00180004 4 2 with dstBase := 0xEFFFFFFD#32 }) := by
  refine ⟨⟨rfl, fun L h => ?_⟩, by rfl, by unfold DestClear; decide⟩
  obtain rfl : latch 0x00180004 4 2 = L := Except.ok.inj (show Except.ok (latch 0x00180004 4 2) = _ from h)
  exact packing_dest

theorem witness_FourBppIgnoresToneControls :
    decodeConfig (small 1).snap.config = some ⟨.four, .horizontal, .little, .none, false, .b24⟩
      ∧ (small 1).snap.brightness.toNat ≤ 100 ∧ (small 1).snap.contrast.toNat ≤ 100
      ∧ ((100#32 : Word).toNat ≤ 100 ∧ (0#32 : Word).toNat ≤ 100) ∧ 100 < (101#32 : Word).toNat
      ∧ (0x001800C4#32 : Word).toNat / 64 % 4 = 3 := by decide

theorem witness_ConvertDiscardsOldPlane :
    ChecksPass (small 1) (latch 0x00180004 3 2) ∧ Memory.wf (small 1).plane = true ∧ Memory.wf (at_ 0 [9, 9]) = true
      ∧ (∃ t, exec .convert (small 1) = .next t ∧ (statusWord t.status == 2#32) = true)
      ∧ (∃ u, exec .convert { small 1 with
            plane := at_ 0 [9, 9], status := { (small 1).status with pk := .level4 } } = .next u
          ∧ (statusWord u.status == 2#32) = true) :=
  ⟨small_checks 1, rfl, by decide, next_of_gives (by decide), next_of_gives (by decide)⟩

/-- A command that ends with DONE, and one that ends with an error. -/
theorem witness_CommandsEndDoneOrError :
    (Instr.convert ≠ .nop ∧ ∃ t, exec .convert (small 1) = .next t ∧ t.status.done = true)
      ∧ (Instr.pack4v ≠ .nop ∧ ∃ t, exec .pack4v (small 6) = .next t ∧ t.status.err = true) :=
  ⟨⟨by decide, next_of_gives (by decide)⟩, by decide, next_of_gives (by decide)⟩

/-- An error end from ERR = 0, and one from ERR = 1 that shows in DONE. -/
theorem witness_PrecheckErrorsChangeOnlyStatus :
    ((small 6).status.err = false
        ∧ ∃ t, exec .pack (small 6) = .next t ∧ (t.status.err && decide (t.status.errcode.toNat ≤ 4)) = true)
      ∧ (Instr.pack ≠ .nop
        ∧ ∃ t, exec .pack { small 6 with status := { Status.reset with busy := true, err := true, errcode := 5#4 } }
            = .next t ∧ (!t.status.done && decide (t.status.errcode.toNat ≤ 4)) = true) :=
  ⟨⟨rfl, next_of_gives (by decide)⟩, by decide, next_of_gives (by decide)⟩

/-- A destination whose last byte is the window's first. -/
def stops : State := { packing with latch := { packing.latch with dstBase := 0xEFFFFFFD#32 } }

theorem witness_StepStopsOnlyOnWindowOverlap : step stops = .fault .regionOverlapsWindow := by rfl

/-- The source's last byte is the window's first; the destination's is, on P7's platform, where the source cannot be
read either, and CONVERT stops all the same. -/
theorem witness_StepStopsOnlyOnWindowOverlap_clauses :
    (ChecksPass { small 2 with snap := { regsOf 0x00180004 3 2 with srcBase := 0xEFFFFFE9#32 } }
          { latch 0x00180004 3 2 with srcBase := 0xEFFFFFE9#32 }
        ∧ ¬ SourceClear defaultPlatform { latch 0x00180004 3 2 with srcBase := 0xEFFFFFE9#32 })
      ∧ (ChecksPass { asked 1 0x00180004 4 2 [] with platform := faulty, snap := overlapping }
          { latch 0x00180004 4 2 with dstBase := 0xEFFFFFFD#32 }
        ∧ ¬ DestClear faulty { latch 0x00180004 4 2 with dstBase := 0xEFFFFFFD#32 }
        ∧ exec .convert { asked 1 0x00180004 4 2 [] with platform := faulty, snap := overlapping }
          = .fault .regionOverlapsWindow)
      ∧ (stops.status.pk = .level4 ∧ ¬ DestClear stops.platform stops.latch) := by
  refine ⟨⟨by rfl, by unfold SourceClear; decide⟩, ⟨by rfl, by unfold DestClear; decide, by rfl⟩, rfl, ?_⟩
  unfold DestClear; decide

theorem witness_StatusWriteClearsFlags :
    (withInbox [.regWrite (defaultPlatform.regBase + 4) 32 0xE#32] (small 2)).inbox
      = .regWrite ((small 2).platform.regBase + 4) 32 0xE#32 :: [] := rfl

theorem witness_IrqIsTheMaskedOr :
    (withInbox [.regWrite (defaultPlatform.regBase + 8) 32 0xF#32] (small 2)).inbox
      = .regWrite ((small 2).platform.regBase + 8) 32 0xF#32 :: [] := rfl

theorem witness_RegisterReadsHaveNoSideEffect :
    (0 < 16 ∧ (withInbox [.regRead (defaultPlatform.regBase + 4 * 0) 32] (small 2)).inbox
        = .regRead ((small 2).platform.regBase + 4 * 0) 32 :: [])
      ∧ (15 < 16 ∧ (withInbox [.regRead (defaultPlatform.regBase + 4 * 15) 32] (small 2)).inbox
        = .regRead ((small 2).platform.regBase + 4 * 15) 32 :: []) := ⟨⟨by decide, rfl⟩, by decide, rfl⟩

theorem witness_ConversionRegistersStoreWrites :
    (3 ≤ 3 ∧ 3 < 16 ∧ (withInbox [.regWrite (defaultPlatform.regBase + 4 * 3) 32 7#32] (small 2)).inbox
        = .regWrite ((small 2).platform.regBase + 4 * 3) 32 7#32 :: [])
      ∧ (3 ≤ 15 ∧ 15 < 16 ∧ (withInbox [.regWrite (defaultPlatform.regBase + 4 * 15) 32 7#32] (small 2)).inbox
        = .regWrite ((small 2).platform.regBase + 4 * 15) 32 7#32 :: []) :=
  ⟨⟨by decide, by decide, rfl⟩, by decide, by decide, rfl⟩

/-- A byte access of `CMD`, an address between two slots, and the one past the window. -/
theorem witness_RefusedAccessesChangeNothing :
    ¬ (8 = 32 ∧ ∃ k, k < 16 ∧ defaultPlatform.regBase = defaultPlatform.regBase + 4 * k)
      ∧ ¬ (32 = 32 ∧ ∃ k, k < 16 ∧ defaultPlatform.regBase + 2 = defaultPlatform.regBase + 4 * k)
      ∧ ¬ (32 = 32 ∧ ∃ k, k < 16 ∧ defaultPlatform.regBase + 64 = defaultPlatform.regBase + 4 * k) := by omega

/-- The last byte of PACK's destination region and the byte after it; the same of a CONVERT. -/
theorem witness_HostMemoryAccesses_region :
    InRunningDest packing 0x2003 ∧ ¬ InRunningDest packing 0x2004 ∧ InRunningDest (small 1) 0x2003
      ∧ ¬ InRunningDest (small 1) 0x2004 := by
  refine ⟨.inl ⟨by decide, .inr rfl, 3, by decide, by decide⟩, ?_,
    .inr ⟨by decide, latch 0x00180004 3 2, small_checks 1, 3, by decide, by decide⟩, ?_⟩
  · rintro (⟨_, _, i, hi, h⟩ | ⟨h, _⟩)
    · exact outside_packing i hi h
    · exact absurd h (by decide)
  · rintro (⟨h, _⟩ | ⟨_, L, hL, i, hi, h⟩)
    · exact absurd h (by decide)
    · obtain rfl : latch 0x00180004 3 2 = L := Except.ok.inj (show Except.ok (latch 0x00180004 3 2) = _ from hL)
      have hi : i < 4 := hi
      interval_cases i <;> revert h <;> decide

theorem witness_HostMemoryAccesses :
    Memory.wf (small 2).mem = true
      ∧ (withInbox [.memWrite 0xFFFFFFFF#32 9#8] (small 2)).inbox = .memWrite 0xFFFFFFFF#32 9#8 :: []
      ∧ ((withInbox [.memRead 0#32] State.reset).inbox = .memRead 0#32 :: [] ∧ State.reset.status.busy = false)
      ∧ ((withInbox [.memRead 0x2000#32] (small 1)).inbox = .memRead 0x2000#32 :: [] ∧ (small 1).status.busy = true) := by
  decide

theorem witness_HostAccessesCannotStopACommand :
    (withInbox [.regWrite defaultPlatform.regBase 32 6#32] (small 2)).inbox
        = .regWrite defaultPlatform.regBase 32 6#32 :: []
      ∧ (HostEvent.regWrite defaultPlatform.regBase 32 6#32 ≠ .engine)
      ∧ (HostEvent.regWrite defaultPlatform.regBase 32 6#32 ≠ .reset)
      ∧ ∃ t, step (withInbox [.regWrite defaultPlatform.regBase 32 6#32] (small 2)) = .next t ∧ t.status.ovr = true :=
  ⟨rfl, by decide, by decide, next_of_gives (by decide)⟩

theorem witness_ResetInputRestoresRegisters :
    (withInbox [.reset] (small 1)).inbox = .reset :: []
      ∧ ∃ t, step (withInbox [.reset] (small 1)) = .next t ∧ (!t.status.busy) = true :=
  ⟨rfl, next_of_gives (by decide)⟩

/-- A LEVEL1 plane and a memory that is not empty. -/
def steady : State := { staged 6 0x00180001 2 1 .level1 [1, 1] with mem := at_ 0 [7] }

theorem witness_StepKeepsErrorCodeRule : StatusInv steady ∧ ∃ t, step steady = .next t ∧ t.status.done = true :=
  ⟨by unfold StatusInv; decide, next_of_gives (by decide)⟩

theorem witness_StepKeepsMemoryCanonical : MemoryInv steady ∧ ∃ t, step steady = .next t ∧ t.status.done = true :=
  ⟨by unfold MemoryInv; decide, next_of_gives (by decide)⟩

theorem witness_StepKeepsPlaneConsistent : PlaneInv steady ∧ ∃ t, step steady = .next t ∧ t.status.done = true := by
  refine ⟨⟨by decide, by decide, by decide, fun _ => coherent_of (config := 0x00180001) (w := 2) (h := 1) (by decide),
    fun _ => rfl, fun _ => rfl, fun _ => ⟨rfl, fun x y hx hy => ?_⟩, fun h => ?_⟩, next_of_gives (by decide)⟩
  · have hx : x < 2 := hx
    have hy : y < 1 := hy
    interval_cases x <;> interval_cases y <;> decide
  · cases h

theorem witness_StepKeepsParametersAndPending : PendingInv steady ∧ ∃ t, step steady = .next t ∧ t.status.done = true :=
  ⟨by unfold PendingInv; decide, next_of_gives (by decide)⟩

theorem witness_EveryAcceptedCommandEnds :
    PendingInv (withInbox [.regRead (defaultPlatform.regBase + 4) 32] steady)
      ∧ ∃ t, Host.Core.run Sys2Proof.core ([HostEvent.regRead (defaultPlatform.regBase + 4) 32].length + 1)
          (withInbox [.regRead (defaultPlatform.regBase + 4) 32] steady) = .next t ∧ (!t.status.busy) = true :=
  ⟨by unfold PendingInv; decide, next_of_gives (by decide)⟩

end Sys2Proof.Tests
end

section
/-! SUPPORT. What a command, a host access and a step can do to the state, each said once, and the induction principle
for what every step keeps. -/

namespace Sys2Proof.Machine

/-! ## The rows -/

/-- The variants of DITHER mean what DITHER means (R68). -/
theorem execDither_variants :
    execDitherNone = execDither ∧ execDitherFloyd = execDither ∧ execDitherOrdered = execDither := by
  refine ⟨?_, ?_, ?_⟩ <;> funext s
  · unfold execDitherNone execDither
    congr 2; funext t
    exact ite_eq_right_iff.2 fun h => by rw [ditherBody, h]
  · unfold execDitherFloyd execDither
    congr 2; funext t
    exact ite_eq_right_iff.2 fun h => by rw [ditherBody, h]
  · unfold execDitherOrdered execDither
    congr 2; funext t
    exact ite_eq_right_iff.2 fun h => by rw [ditherBody, h]

/-- The variants of QUANTIZE mean what QUANTIZE means (R68). -/
theorem execQuantize_variants : execQuantize1 = execQuantize ∧ execQuantize4 = execQuantize := by
  refine ⟨?_, ?_⟩ <;> funext s
  · unfold execQuantize1 execQuantize
    congr 2; funext t
    exact ite_eq_right_iff.2 fun h => by rw [quantizeBody, h]
  · unfold execQuantize4 execQuantize
    congr 2; funext t
    exact ite_eq_right_iff.2 fun h => by rw [quantizeBody, h]

/-- Where the latch selects the layout, packing with it is `PackBody()` (R68, R105). -/
theorem packWith_selected {t : State} {ob : OutBpp} {sc : Scan} (h : t.latch.outBpp = ob ∧ t.latch.scan = sc) :
    packWith (layoutOf ob sc) t = packBody t := by rw [packBody, h.1, h.2]

/-- The variants of PACK mean what PACK means (R68). -/
theorem execPack_variants :
    execPack4h = execPack ∧ execPack4v = execPack ∧ execPack1h = execPack ∧ execPack1v = execPack := by
  refine ⟨?_, ?_, ?_, ?_⟩ <;> funext s
  · unfold execPack4h execPack
    congr 2; funext t
    exact ite_eq_right_iff.2 (packWith_selected (ob := .four) (sc := .horizontal))
  · unfold execPack4v execPack
    congr 2; funext t
    exact ite_eq_right_iff.2 (packWith_selected (ob := .four) (sc := .vertical))
  · unfold execPack1h execPack
    congr 2; funext t
    exact ite_eq_right_iff.2 (packWith_selected (ob := .one) (sc := .horizontal))
  · unfold execPack1v execPack
    congr 2; funext t
    exact ite_eq_right_iff.2 (packWith_selected (ob := .one) (sc := .vertical))

/-- What holds of the meanings of NOP, the six commands and the illegal words holds of every row's meaning. -/
theorem exec_rows {C : (State → Host.Outcome State Fault Refusal) → Prop} (nop : C execNop) (convert : C execConvert)
    (reduce : C execReduce) (adjust : C execAdjust) (dither : C execDither) (quantize : C execQuantize)
    (pack : C execPack) (illegal : ∀ w, C (execIllegal w)) (i : Instr) : C (exec i) := by
  obtain ⟨none, floyd, ordered⟩ := execDither_variants
  obtain ⟨one, four⟩ := execQuantize_variants
  obtain ⟨h4, v4, h1, v1⟩ := execPack_variants
  cases i with
  | nop => exact nop
  | convert => exact convert
  | reduce => exact reduce
  | adjust => exact adjust
  | dither => exact dither
  | quantize => exact quantize
  | pack => exact pack
  | ditherNone => exact (congrArg C none).mpr dither
  | ditherFloyd => exact (congrArg C floyd).mpr dither
  | ditherOrdered => exact (congrArg C ordered).mpr dither
  | quantize1 => exact (congrArg C one).mpr quantize
  | quantize4 => exact (congrArg C four).mpr quantize
  | pack4h => exact (congrArg C h4).mpr pack
  | pack4v => exact (congrArg C v4).mpr pack
  | pack1h => exact (congrArg C h1).mpr pack
  | pack1v => exact (congrArg C v1).mpr pack
  | illegal w => exact illegal w

/-! ## What the stages of a command leave alone -/

/-- `t` differs from `s` in what the stages of a command write at most: the latch with `ROW_SIZE` and `OUT_LEN`, the
plane with `PK`, memory, and the model's counter. -/
structure StageFrame (s t : State) : Prop where
  regs : t.regs = s.regs
  inten : t.inten = s.inten
  status : t.status = { s.status with pk := t.status.pk }
  pend : t.pend = s.pend
  snap : t.snap = s.snap
  platform : t.platform = s.platform
  inbox : t.inbox = s.inbox
  reply : t.reply = s.reply
  touched : t.touched = s.touched

theorem StageFrame.refl (s : State) : StageFrame s s := ⟨rfl, rfl, rfl, rfl, rfl, rfl, rfl, rfl, rfl⟩

theorem StageFrame.trans {s t u : State} (h : StageFrame s t) (k : StageFrame t u) : StageFrame s u where
  regs := k.regs.trans h.regs
  inten := k.inten.trans h.inten
  status := by rw [k.status, h.status]
  pend := k.pend.trans h.pend
  snap := k.snap.trans h.snap
  platform := k.platform.trans h.platform
  inbox := k.inbox.trans h.inbox
  reply := k.reply.trans h.reply
  touched := k.touched.trans h.touched

theorem stageFrame_adjustBody (s : State) : StageFrame s (adjustBody s) := by constructor <;> simp
theorem stageFrame_ditherBody (s : State) : StageFrame s (ditherBody s) := by constructor <;> simp
theorem stageFrame_oneBppStages (s : State) : StageFrame s (oneBppStages s) := by constructor <;> simp
theorem stageFrame_quantizeBody (s : State) : StageFrame s (quantizeBody s) := by constructor <;> simp

theorem checkAndLatch_frame (s : State) : (checkAndLatch s).Holds (StageFrame s) := by
  cases h : latchOf s.platform.planeCapacity s.snap with
  | error e => rw [checkAndLatch_error h]; exact .refl s
  | ok L => rw [checkAndLatch_ok h]; constructor <;> rfl

theorem requireDestClear_frame (s : State) : (requireDestClear s).Holds (StageFrame s) := by
  rcases requireDestClear_cases s with ⟨h, -⟩ | ⟨h, -⟩ <;> rw [h]
  · trivial
  · exact .refl s

theorem reduceBody_frame (s : State) : (reduceBody s).Holds (StageFrame s) := by
  rcases reduceBody_cases s with ⟨h, -⟩ | ⟨h, -, -⟩ | ⟨h, -, -⟩ <;> rw [h]
  · trivial
  · constructor <;> rfl
  · constructor <;> rfl

theorem packBody_frame (s : State) : (packBody s).Holds (StageFrame s) := by
  rw [packBody_eq, packWith]
  rcases writePacked_cases (packedBytes (layoutOf s.latch.outBpp s.latch.scan) s.latch s.plane) s with
    ⟨h, -⟩ | ⟨h, -, -⟩ | ⟨h, -, -⟩ <;> rw [h]
  · trivial
  · constructor <;> rfl
  · constructor <;> rfl

/-- A next stage that keeps the frame, after stages that keep it. -/
theorem andThen_frame {s : State} {r : Progress} {f : State → Progress} (hr : r.Holds (StageFrame s))
    (hf : ∀ t, (f t).Holds (StageFrame t)) : (r.andThen f).Holds (StageFrame s) := by
  refine andThen_holds hr (fun t ht => ?_) (fun _ ht => ht)
  have := hf t
  cases hft : f t with
  | going u => rw [hft] at this; exact ht.trans this
  | raised e u => rw [hft] at this; exact ht.trans this
  | stuck r => trivial

/-- A stage that cannot fail and keeps the frame, after stages that keep it. -/
theorem thenDo_frame {s : State} {r : Progress} {f : State → State} (hr : r.Holds (StageFrame s))
    (hf : ∀ t, StageFrame t (f t)) : (r.thenDo f).Holds (StageFrame s) :=
  andThen_frame hr hf

/-- How a row's meaning can end: NOP by the rule of the `CMD` write, every other row by `finish` or an error in a state
that its stages have left inside their frame (R73, R74). -/
inductive CommandEnd (s : State) : State → Prop where
  | nop : CommandEnd s (cmdWrite 0x00000000#32 s)
  | finished {u : State} : StageFrame s u → CommandEnd s (finish u)
  | failed (e : CmdError) {u : State} : StageFrame s u → CommandEnd s (raiseError e u)

theorem commandEnd_of_holds {s t : State} {r : Progress} (hr : r.Holds (StageFrame s)) (h : r.outcome = .next t) :
    CommandEnd s t := by
  rcases outcome_next h with ⟨u, rfl, rfl⟩ | ⟨e, u, rfl, rfl⟩
  · exact .finished hr
  · exact .failed e hr

/-- Every next state of a row's meaning is one of these ends. -/
theorem exec_commandEnd (i : Instr) : ∀ {s t : State}, exec i s = .next t → CommandEnd s t := by
  refine exec_rows (C := fun f => ∀ {s t}, f s = .next t → CommandEnd s t) ?nop ?convert ?reduce ?adjust ?dither
    ?quantize ?pack ?illegal i <;> intros
  case nop h => injection h with h; exact h ▸ .nop
  case convert s t h =>
    have started := andThen_frame (checkAndLatch_frame s) requireDestClear_frame
    have adjusted := thenDo_frame (andThen_frame started reduceBody_frame) stageFrame_oneBppStages
    have quantized := thenDo_frame adjusted stageFrame_quantizeBody
    exact commandEnd_of_holds (andThen_frame quantized packBody_frame) h
  case reduce s t h => exact commandEnd_of_holds (andThen_frame (checkAndLatch_frame s) reduceBody_frame) h
  case adjust s t h => exact commandEnd_of_holds (thenDo_frame (require_holds (.refl s)).1 stageFrame_adjustBody) h
  case dither s t h => exact commandEnd_of_holds (thenDo_frame (require_holds (.refl s)).1 stageFrame_ditherBody) h
  case quantize s t h =>
    exact commandEnd_of_holds (thenDo_frame (require_holds (.refl s)).2.1 stageFrame_quantizeBody) h
  case pack s t h => exact commandEnd_of_holds (andThen_frame (require_holds (.refl s)).2.2 packBody_frame) h
  case illegal w s t h => exact commandEnd_of_holds (r := .raised .illegalCmd s) (.refl s) h

/-! ## What a host access can do -/

/-- What a host access other than the reset input can do. -/
inductive AccessEffect (s : State) : State → Prop where
  /-- A write of `CMD` (R72). -/
  | command (w : Word) (q : HostReply) : AccessEffect s (withReply q (cmdWrite w s))
  /-- A write of `STATUS` (R78). -/
  | clearFlags (w : Word) (q : HostReply) :
      AccessEffect s (withReply q { s with status := statusAfterWrite w s.status })
  /-- A write of `INTEN` or a conversion register, a write that is ignored or refused, or a read. -/
  | store (r : ConvRegs) (v : BitVec 3) (q : HostReply) (n : Nat) :
      AccessEffect s { s with regs := r, inten := v, reply := some q, freeCount := n }
  /-- A write of a byte of memory (R54). -/
  | memWrite (a : Word) (v : Byte) : AccessEffect s (hostMemWrite a v s)

/-- A reply alone is one of the accesses that store nothing. -/
theorem AccessEffect.replied (q : HostReply) (s : State) : AccessEffect s (withReply q s) :=
  .store s.regs s.inten q s.freeCount

theorem regWrite_effect (r : Reg) (w : Word) (q : HostReply) (s : State) :
    AccessEffect s (withReply q (regWrite r w s)) := by
  cases r with
  | cmd => exact .command w q
  | status => exact .clearFlags w q
  | inten => exact .store s.regs (intenAfterWrite w) q s.freeCount
  | config => exact .store { s.regs with config := w } s.inten q s.freeCount
  | width => exact .store { s.regs with width := w } s.inten q s.freeCount
  | height => exact .store { s.regs with height := w } s.inten q s.freeCount
  | brightness => exact .store { s.regs with brightness := w } s.inten q s.freeCount
  | contrast => exact .store { s.regs with contrast := w } s.inten q s.freeCount
  | srcBase => exact .store { s.regs with srcBase := w } s.inten q s.freeCount
  | dstBase => exact .store { s.regs with dstBase := w } s.inten q s.freeCount
  | rowSize => exact .replied q s
  | outLen => exact .replied q s
  | reserved => exact .replied q s

/-- Every host access but the reset input has one of these effects. -/
theorem eventTurn_effect {e : HostEvent} {s t : State} (he : e ≠ .engine) (hr : e ≠ .reset)
    (h : eventTurn e s = .next t) : AccessEffect s t := by
  cases e with
  | engine => exact absurd rfl he
  | reset => exact absurd rfl hr
  | regWrite addr width w =>
    injection h with h; subst h
    unfold regWriteAccess
    cases regAt s.platform addr width with
    | some r => exact regWrite_effect r w .ack s
    | none => exact .replied .refusedWrite s
  | regRead addr width =>
    injection h with h; subst h
    unfold regReadAccess
    cases regAt s.platform addr width with
    | some r => exact .replied (.word (regRead s r)) s
    | none => exact .replied (.refusedRead 0x00000000#32) s
  | memWrite a v => injection h with h; exact h ▸ .memWrite a v
  | memRead a =>
    injection h with h; subst h
    unfold hostMemRead
    split
    · exact .store s.regs s.inten _ (s.freeCount + 1)
    · exact .replied _ s

/-! ## The step -/

/-- A step with a host event in the inbox takes the event. -/
theorem step_event {s : State} {e : HostEvent} {rest : List HostEvent} (h : s.inbox = e :: rest) :
    step s = eventTurn e (withInbox rest s) := by rw [step, nextTurn, h]

/-- A step with nothing in the inbox is the engine's turn. -/
theorem step_engine {s : State} (h : s.inbox = []) : step s = engineTurn s := by rw [step, nextTurn, h]

/-- A step with a register write at slot `k` of the window in the inbox. -/
theorem step_regWrite {s : State} {k : Nat} {w : Word} {rest : List HostEvent} (hk : k < 16)
    (h : s.inbox = .regWrite (s.platform.regBase + 4 * k) 32 w :: rest) :
    step s = .next (withReply .ack (regWrite (regOfSlot k) w (withInbox rest s))) := by
  rw [step_event h, eventTurn, regWriteAccess, withInbox_platform, regAt_slot _ hk]

/-- A step with a register read at slot `k` of the window in the inbox. -/
theorem step_regRead {s : State} {k : Nat} {rest : List HostEvent} (hk : k < 16)
    (h : s.inbox = .regRead (s.platform.regBase + 4 * k) 32 :: rest) :
    step s = .next (withReply (.word (regRead (withInbox rest s) (regOfSlot k))) (withInbox rest s)) := by
  rw [step_event h, eventTurn, regReadAccess, withInbox_platform, regAt_slot _ hk]

/-- What the taking of an event from the inbox, every row's meaning, every host access and the reset input keep, every
step keeps. -/
theorem step_keeps {P : State → Prop} (inbox : ∀ l s, P s → P (withInbox l s))
    (command : ∀ i s t, P s → exec i s = .next t → P t) (access : ∀ s t, P s → AccessEffect s t → P t)
    (reset : ∀ s, P s → P (blockReset s)) {s t : State} (hs : P s) (h : step s = .next t) : P t := by
  have engine : ∀ u, P u → engineTurn u = .next t → P t := by
    intro u hu ht
    unfold engineTurn at ht
    split at ht
    · exact command _ _ _ hu ht
    · injection ht with ht; exact ht ▸ hu
  cases hi : s.inbox with
  | nil => exact engine s hs (step_engine hi ▸ h)
  | cons e rest =>
    rw [step_event hi] at h
    have hs' := inbox rest s hs
    by_cases he : e = .engine
    · subst he; exact engine _ hs' h
    · by_cases hr : e = .reset
      · subst hr; injection h with h; exact h ▸ reset _ hs'
      · exact access _ _ hs' (eventTurn_effect he hr h)

end Sys2Proof.Machine
end

section
/-! SUPPORT. The status invariant, the parameters and the pending command: what a `CMD` write, the end of a command and a
host access do to them. -/

namespace Sys2Proof.Machine

/-! ## The status invariant (R14, R118) -/

/-- Every error code is from 1 to 6. -/
theorem CmdError.code_range (e : CmdError) : e.code ≠ 0#4 ∧ e.code.toNat ≤ 6 := by cases e <;> decide

/-- The invariant reads `ERR` and `ERRCODE` only. -/
theorem StatusInv.of_same {s t : State} (hs : StatusInv s) (he : t.status.err = s.status.err)
    (hc : t.status.errcode = s.status.errcode) : StatusInv t := by
  unfold StatusInv; rwa [he, hc]

/-- The invariant holds where `ERR` is 0 with the code 0. -/
theorem statusInv_of_clear {s : State} (he : s.status.err = false) (hc : s.status.errcode = 0#4) : StatusInv s := by
  simp [StatusInv, he, hc]

theorem statusInv_cmdWrite (w : Word) {s : State} (hs : StatusInv s) : StatusInv (cmdWrite w s) := by
  rcases cmdWrite_cases w s with ⟨-, h⟩ | ⟨-, -, h⟩ | ⟨-, -, h⟩ <;> rw [h]
  · exact hs.of_same rfl rfl
  · exact hs
  · exact hs.of_same rfl rfl

theorem statusInv_raiseError (e : CmdError) (s : State) : StatusInv (raiseError e s) := by
  obtain ⟨hne, hle⟩ := e.code_range
  simp [StatusInv, hne, hle]

theorem statusInv_commandEnd {s t : State} (hs : StatusInv s) (h : CommandEnd s t) : StatusInv t := by
  cases h with
  | nop => exact statusInv_cmdWrite _ hs
  | finished hu =>
    exact hs.of_same (by rw [finish_status, hu.status]) (by rw [finish_status, hu.status])
  | failed e _ => exact statusInv_raiseError e _

theorem statusInv_accessEffect {s t : State} (hs : StatusInv s) (h : AccessEffect s t) : StatusInv t := by
  cases h with
  | command w q => exact (statusInv_cmdWrite w hs).of_same rfl rfl
  | clearFlags w q =>
    by_cases hw : w.getLsbD 2 = true
    · exact statusInv_of_clear (if_pos hw) (if_pos hw)
    · exact hs.of_same (if_neg hw) (if_neg hw)
  | store r v q n => exact hs.of_same rfl rfl
  | memWrite a v => exact hs.of_same rfl rfl

theorem statusInv_blockReset (s : State) : StatusInv (blockReset s) := statusInv_of_clear rfl rfl

/-! ## The parameters and the pending command (R26, R54, R73) -/

theorem cmdWrite_platform (w : Word) (s : State) : (cmdWrite w s).platform = s.platform := by
  rcases cmdWrite_cases w s with ⟨-, h⟩ | ⟨-, -, h⟩ | ⟨-, -, h⟩ <;> rw [h]
  rfl

theorem commandEnd_platform {s t : State} (h : CommandEnd s t) : t.platform = s.platform := by
  cases h with
  | nop => exact cmdWrite_platform _ s
  | finished hu => exact hu.platform
  | failed e hu => exact hu.platform

/-- A state with `BUSY = 0` and no touched address meets the pending-command invariant. -/
theorem pendingInv_of_idle {s : State} (hb : s.status.busy = false) (ht : s.touched = []) : PendingInv s := by
  simp [PendingInv, hb, ht]

/-- The invariant reads `BUSY`, `PEND` and the touched addresses only. -/
theorem PendingInv.of_same {s t : State} (hs : PendingInv s) (hb : t.status.busy = s.status.busy)
    (hp : t.pend = s.pend) (ht : t.touched = s.touched) : PendingInv t := by
  unfold PendingInv; rwa [hb, hp, ht]

theorem pendingInv_cmdWrite (w : Word) {s : State} (hs : PendingInv s) : PendingInv (cmdWrite w s) := by
  rcases cmdWrite_cases w s with ⟨-, h⟩ | ⟨-, -, h⟩ | ⟨-, hw, h⟩ <;> rw [h]
  · exact hs.of_same rfl rfl rfl
  · exact hs
  · exact ⟨fun _ => hw, nofun⟩

theorem pendingInv_commandEnd {s t : State} (hs : PendingInv s) (h : CommandEnd s t) : PendingInv t := by
  cases h with
  | nop => exact pendingInv_cmdWrite _ hs
  | finished _ => exact pendingInv_of_idle rfl rfl
  | failed e _ => exact pendingInv_of_idle rfl rfl

theorem pendingInv_accessEffect {s t : State} (hs : PendingInv s) (h : AccessEffect s t) : PendingInv t := by
  cases h with
  | command w q => exact (pendingInv_cmdWrite w hs).of_same rfl rfl rfl
  | clearFlags w q => exact hs.of_same rfl rfl rfl
  | store r v q n => exact hs.of_same rfl rfl rfl
  | memWrite a v =>
    refine ⟨hs.1, fun hb => ?_⟩
    have hb : s.status.busy = false := hb
    simp [hostMemWrite, hb, hs.2 hb]

/-! ## What no host access writes (R10, R15, R122) -/

/-- `t` agrees with `s` in what no host access but the reset input writes: `PK`, the plane, the latch, `ROW_SIZE`,
`OUT_LEN` and the parameters, and, while a command runs, `BUSY`, `PEND` and the snapshot. -/
structure AccessFrame (s t : State) : Prop where
  pk : t.status.pk = s.status.pk
  plane : t.plane = s.plane
  latch : t.latch = s.latch
  rowSize : t.rowSize = s.rowSize
  outLen : t.outLen = s.outLen
  platform : t.platform = s.platform
  running : s.status.busy = true → t.status.busy = true ∧ t.pend = s.pend ∧ t.snap = s.snap

theorem accessFrame_cmdWrite (w : Word) (s : State) : AccessFrame s (cmdWrite w s) := by
  rcases cmdWrite_cases w s with ⟨-, h⟩ | ⟨-, -, h⟩ | ⟨hb, -, h⟩ <;> rw [h]
  · exact ⟨rfl, rfl, rfl, rfl, rfl, rfl, fun hb => ⟨hb, rfl, rfl⟩⟩
  · exact ⟨rfl, rfl, rfl, rfl, rfl, rfl, fun hb => ⟨hb, rfl, rfl⟩⟩
  · exact ⟨rfl, rfl, rfl, rfl, rfl, rfl, fun hb' => absurd (hb.symm.trans hb') nofun⟩

theorem accessFrame_of_effect {s t : State} (h : AccessEffect s t) : AccessFrame s t := by
  cases h with
  | command w q =>
    obtain ⟨pk, plane, latch, rowSize, outLen, platform, running⟩ := accessFrame_cmdWrite w s
    exact ⟨pk, plane, latch, rowSize, outLen, platform, running⟩
  | clearFlags w q => exact ⟨rfl, rfl, rfl, rfl, rfl, rfl, fun hb => ⟨hb, rfl, rfl⟩⟩
  | store r v q n => exact ⟨rfl, rfl, rfl, rfl, rfl, rfl, fun hb => ⟨hb, rfl, rfl⟩⟩
  | memWrite a v => exact ⟨rfl, rfl, rfl, rfl, rfl, rfl, fun hb => ⟨hb, rfl, rfl⟩⟩

end Sys2Proof.Machine
end

section
/-! SUPPORT. The plane invariant through the stages of a command: the buffer alone, the buffer with a coherent latch
(between the latch and the plane's new contents), and the invariant itself. -/

namespace Sys2Proof.Machine

/-! ## A latch that passes the checks is coherent (R29, R81, R82, R83, R104) -/

theorem ceilDiv_le {a b : Nat} (ha : 1 ≤ a) (hb : 1 ≤ b) : ceilDiv a b ≤ a := by
  obtain ⟨a, rfl⟩ := Nat.exists_eq_add_of_le' ha
  obtain ⟨b, rfl⟩ := Nat.exists_eq_add_of_le' hb
  exact Nat.div_le_of_le_mul (by ring_nf; omega)

theorem le_planeWidthOf (ob : OutBpp) (w : Nat) : w ≤ planeWidthOf ob w := by cases ob <;> simp [planeWidthOf]

/-- An output image has at most as many bytes as the plane has cells. -/
theorem outLenOf_le (ob : OutBpp) (sc : Scan) {w h : Nat} (hw : 1 ≤ w) (hh : 1 ≤ h) :
    outLenOf ob sc w (planeWidthOf ob w) h ≤ planeWidthOf ob w * h := by
  cases ob <;> cases sc
  case one.horizontal => exact Nat.mul_le_mul_right h (ceilDiv_le hw (by omega))
  case one.vertical => exact Nat.mul_le_mul_left w (ceilDiv_le hh (by omega))
  case four.horizontal => exact Nat.mul_le_mul_right h (Nat.div_le_self _ 2)
  case four.vertical => exact Nat.mul_le_mul_left _ (ceilDiv_le hh (by omega))

/-- A stored row takes at most four bytes a pixel and three of padding. -/
theorem rowSizeOf_le (w : Nat) (sb : SrcBpp) : rowSizeOf w (bytesPerPixelOf sb) ≤ 4 * w + 3 := by
  cases sb <;> simp only [rowSizeOf, ceilDiv, bytesPerPixelOf, SrcBpp.value] <;> omega

theorem latchCoherent_of_latchOf {cap : Nat} {r : ConvRegs} {L : Latch} (hcap : cap ≤ 268435456)
    (h : latchOf cap r = .ok L) : LatchCoherent cap L := by
  obtain ⟨f, -, hb, hc, hw, hh, hfit, rfl⟩ := latchOf_ok h
  have hw : 1 ≤ (signedWord r.width).toNat := by omega
  have hh : 1 ≤ (signedWord r.height).toNat := by omega
  generalize (signedWord r.width).toNat = w at *
  generalize (signedWord r.height).toNat = rows at *
  have hwidth : w ≤ cap :=
    calc w ≤ planeWidthOf f.outBpp w := le_planeWidthOf _ _
      _ ≤ planeWidthOf f.outBpp w * rows := Nat.le_mul_of_pos_right _ hh
      _ ≤ cap := hfit
  have hrow := rowSizeOf_le w f.srcBpp
  have hlen := outLenOf_le f.outBpp f.scan hw hh
  exact {
    bytesPerPixel := rfl, widthPositive := hw, heightPositive := hh, planeWidth := rfl, planeHeight := rfl
    fits := hfit, brightness := hb, contrast := hc
    rowSize := Nat.mod_eq_of_lt (by omega)
    outLen := Nat.mod_eq_of_lt (by omega) }

/-! ## The parts of the plane invariant -/

/-- The parameters are a platform's, and the plane buffer is canonical and inside its capacity. -/
structure PlaneBuffer (s : State) : Prop where
  platform : s.platform.wf = true
  canonical : Memory.wf s.plane = true
  inside : Memory.below s.platform.planeCapacity s.plane = true

/-- The buffer is as it should be, the latch is coherent and the two read-only registers show it: what holds from the
latch on, whatever the plane's cells are. -/
structure PlaneLatched (s : State) : Prop extends PlaneBuffer s where
  coherent : LatchCoherent s.platform.planeCapacity s.latch
  rowSizeShown : s.rowSize = s.latch.rowSize
  outLenShown : s.outLen = s.latch.outLen

theorem PlaneInv.buffer {s : State} (h : PlaneInv s) : PlaneBuffer s := ⟨h.platform, h.canonical, h.inside⟩

theorem PlaneInv.planeLatched {s : State} (h : PlaneInv s) (hk : s.status.pk ≠ .empty) : PlaneLatched s :=
  ⟨h.buffer, h.latched hk, h.rowSizeShown hk, h.outLenShown hk⟩

/-- A released plane asks for the buffer only. -/
theorem PlaneBuffer.released {s : State} (h : PlaneBuffer s) (hk : s.status.pk = .empty) : PlaneInv s where
  platform := h.platform
  canonical := h.canonical
  inside := h.inside
  latched := fun hne => absurd hk hne
  rowSizeShown := fun hne => absurd hk hne
  outLenShown := fun hne => absurd hk hne
  level1 := fun h1 => absurd (hk.symm.trans h1) nofun
  level4 := fun h4 => absurd (hk.symm.trans h4) nofun

/-- A plane of levels, with what its kind asks for. -/
theorem PlaneLatched.planeInv {s : State} (h : PlaneLatched s)
    (h1 : s.status.pk = .level1 → s.latch.outBpp = .one ∧ PlaneAtMost 1 s)
    (h4 : s.status.pk = .level4 → s.latch.outBpp = .four ∧ PlaneAtMost 15 s) : PlaneInv s where
  platform := h.platform
  canonical := h.canonical
  inside := h.inside
  latched := fun _ => h.coherent
  rowSizeShown := fun _ => h.rowSizeShown
  outLenShown := fun _ => h.outLenShown
  level1 := h1
  level4 := h4

/-- A LUMA8 plane asks nothing of its cells. -/
theorem PlaneLatched.luma {s : State} (h : PlaneLatched s) (hk : s.status.pk = .luma8) : PlaneInv s :=
  h.planeInv (fun h1 => absurd (hk.symm.trans h1) nofun) (fun h4 => absurd (hk.symm.trans h4) nofun)

/-- The buffer's part reads the parameters and the plane only. -/
theorem PlaneBuffer.of_same {s t : State} (h : PlaneBuffer s) (hf : t.platform = s.platform)
    (hp : t.plane = s.plane) : PlaneBuffer t :=
  ⟨hf ▸ h.platform, hp ▸ h.canonical, by rw [hf, hp]; exact h.inside⟩

/-- The invariant reads `PK`, the plane, the latch, `ROW_SIZE`, `OUT_LEN` and the parameters only. -/
theorem PlaneInv.of_same {s t : State} (h : PlaneInv s) (pk : t.status.pk = s.status.pk) (plane : t.plane = s.plane)
    (latch : t.latch = s.latch) (rowSize : t.rowSize = s.rowSize) (outLen : t.outLen = s.outLen)
    (platform : t.platform = s.platform) : PlaneInv t := by
  obtain ⟨wf, canonical, inside, latched, rowSizeShown, outLenShown, level1, level4⟩ := h
  constructor <;> simp only [PlaneAtMost, pk, plane, latch, rowSize, outLen, platform] <;> assumption

/-- The invariant reads nothing that a host access writes. -/
theorem PlaneInv.of_accessFrame {s t : State} (h : PlaneInv s) (hf : AccessFrame s t) : PlaneInv t :=
  h.of_same hf.pk hf.plane hf.latch hf.rowSize hf.outLen hf.platform

theorem planeInv_finish {s : State} (h : PlaneInv s) : PlaneInv (finish s) := h.of_same rfl rfl rfl rfl rfl rfl

/-- An error keeps the invariant, whether or not it releases the plane. -/
theorem planeInv_raiseError (e : CmdError) {s : State} (h : PlaneInv s) : PlaneInv (raiseError e s) := by
  cases hr : e.releasesPlane with
  | true => exact (h.buffer.of_same (t := raiseError e s) rfl rfl).released (by simp [hr])
  | false => exact h.of_same (by simp [hr]) rfl rfl rfl rfl rfl

/-- An execution-phase error in a state whose buffer is as it should be. -/
theorem PlaneBuffer.failed {e : CmdError} {s : State} (h : PlaneBuffer s) (he : e.releasesPlane = true) :
    PlaneInv (raiseError e s) :=
  (h.of_same (t := raiseError e s) rfl rfl).released (by simp [he])

/-- A new plane in the buffer, canonical and inside the capacity. -/
theorem PlaneLatched.withPlane {s t : State} (h : PlaneLatched s) (hf : t.platform = s.platform)
    (hl : t.latch = s.latch) (hr : t.rowSize = s.rowSize) (ho : t.outLen = s.outLen)
    (hp : Memory.wf t.plane = true ∧ Memory.below s.platform.planeCapacity t.plane = true) : PlaneLatched t where
  platform := hf ▸ h.platform
  canonical := hp.1
  inside := hf ▸ hp.2
  coherent := by rw [hf, hl]; exact h.coherent
  rowSizeShown := by rw [hr, hl]; exact h.rowSizeShown
  outLenShown := by rw [ho, hl]; exact h.outLenShown

/-! ## The stages -/

/-- Where a command goes on its state meets `G`, and where it has raised an error it ends in a state that meets `Q`. -/
def Progress.Leaves (G Q : State → Prop) : Progress → Prop
  | .going s => G s
  | .raised e s => Q (raiseError e s)
  | .stuck _ => True

theorem Progress.Leaves.imp {G G' Q : State → Prop} {r : Progress} (hr : r.Leaves G Q) (hg : ∀ s, G s → G' s) :
    r.Leaves G' Q := by
  cases r with
  | going s => exact hg s hr
  | raised e s => exact hr
  | stuck _ => trivial

theorem andThen_leaves {G G' Q : State → Prop} {r : Progress} {f : State → Progress} (hr : r.Leaves G Q)
    (hf : ∀ s, G s → (f s).Leaves G' Q) : (r.andThen f).Leaves G' Q := by
  cases r with
  | going s => exact hf s hr
  | raised e s => exact hr
  | stuck _ => trivial

theorem thenDo_leaves {G G' Q : State → Prop} {r : Progress} {f : State → State} (hr : r.Leaves G Q)
    (hf : ∀ s, G s → G' (f s)) : (r.thenDo f).Leaves G' Q := andThen_leaves hr hf

/-- A command whose stages leave the plane invariant ends with it. -/
theorem planeInv_of_leaves {r : Progress} {t : State} (hr : r.Leaves PlaneInv PlaneInv) (h : r.outcome = .next t) :
    PlaneInv t := by
  rcases outcome_next h with ⟨s, rfl, rfl⟩ | ⟨e, s, rfl, rfl⟩
  · exact planeInv_finish hr
  · exact hr

/-- After check and latch the latch is coherent, whatever plane the buffer still holds. -/
theorem checkAndLatch_leaves {s : State} (hs : PlaneInv s) : (checkAndLatch s).Leaves PlaneLatched PlaneInv := by
  cases h : latchOf s.platform.planeCapacity s.snap with
  | error e => rw [checkAndLatch_error h]; exact planeInv_raiseError e hs
  | ok L =>
    rw [checkAndLatch_ok h]
    have hcap : s.platform.planeCapacity ≤ 268435456 := by
      have := hs.platform
      simp only [Platform.wf, Bool.and_eq_true, decide_eq_true_eq] at this
      exact this.2
    exact ⟨hs.buffer.of_same rfl rfl, latchCoherent_of_latchOf hcap h, rfl, rfl⟩

theorem startConversion_leaves {s : State} (hs : PlaneInv s) : (startConversion s).Leaves PlaneLatched PlaneInv := by
  refine andThen_leaves (checkAndLatch_leaves hs) (fun t ht => ?_)
  rcases requireDestClear_cases t with ⟨h, -⟩ | ⟨h, -⟩ <;> rw [h]
  · trivial
  · exact ht

/-- REDUCE's loops leave a LUMA8 plane, or the released one of `BUS_READ` (R85, R117). -/
theorem reduceBody_leaves {s : State} (hs : PlaneLatched s) :
    (reduceBody s).Leaves (fun t => PlaneLatched t ∧ t.status.pk = .luma8) PlaneInv := by
  have hp := reducedPlane_keeps hs.coherent.fits hs.canonical hs.inside
  rcases reduceBody_cases s with ⟨h, -⟩ | ⟨h, -, -⟩ | ⟨h, -, -⟩ <;> rw [h]
  · trivial
  · have : PlaneLatched (withReducedPlane (reducedPlane s).1 s) := hs.withPlane rfl rfl rfl rfl hp
    exact this.toPlaneBuffer.failed rfl
  · exact ⟨hs.withPlane rfl rfl rfl rfl hp, rfl⟩

/-- A cell-by-cell change of the latched plane stays canonical and inside the buffer. -/
theorem planeMap_keeps (f : Nat → Nat → Byte → Byte) {s : State} (hs : PlaneLatched s) :
    Memory.wf (planeMap s.latch.pw s.latch.ph f s.plane) = true
      ∧ Memory.below s.platform.planeCapacity (planeMap s.latch.pw s.latch.ph f s.plane) = true :=
  ⟨(planeMap_spec _ _ f hs.canonical).1, below_planeMap f hs.coherent.fits hs.inside⟩

theorem adjustBody_latched {s : State} (hs : PlaneLatched s) : PlaneLatched (adjustBody s) :=
  hs.withPlane rfl rfl rfl rfl (planeMap_keeps (fun _ _ v => adjustValue v s.latch.b s.latch.c) hs)

theorem ditherBody_latched {s : State} (hs : PlaneLatched s) : PlaneLatched (ditherBody s) := by
  refine hs.withPlane (by simp) (by simp) (by simp) (by simp) ?_
  rw [ditherBody_plane]
  cases s.latch.dither with
  | none => exact ⟨hs.canonical, hs.inside⟩
  | floyd =>
    obtain ⟨hw, hb, -⟩ := floydSteinberg_keeps hs.coherent.fits hs.canonical hs.inside
    exact ⟨hw, hb⟩
  | ordered => exact planeMap_keeps _ hs

theorem oneBppStages_latched {s : State} (hs : PlaneLatched s) : PlaneLatched (oneBppStages s) := by
  unfold oneBppStages
  cases s.latch.outBpp with
  | four => exact hs
  | one =>
    dsimp only
    split
    · exact adjustBody_latched hs
    · exact ditherBody_latched (adjustBody_latched hs)

/-- `Q1` gives 0 or 1 (R102). -/
theorem quantizeOne_le (v : Byte) : (quantizeOne v).toNat ≤ 1 := by unfold quantizeOne; split <;> decide

/-- `Q4` gives at most 15 (R103). -/
theorem quantizeFour_le (v : Byte) : (quantizeFour v).toNat ≤ 15 := by
  simp only [quantizeFour, BitVec.toNat_ofNat]; omega

/-- QUANTIZE leaves a plane of levels of the latch's depth (R101 to R103). -/
theorem quantizeBody_planeInv {s : State} (hs : PlaneLatched s) : PlaneInv (quantizeBody s) := by
  unfold quantizeBody
  cases hb : s.latch.outBpp with
  | one =>
    obtain ⟨-, hc, -⟩ := planeMap_spec s.latch.pw s.latch.ph (fun _ _ v => quantizeOne v) hs.canonical
    have hl : PlaneLatched (quantizeOneBody s) := hs.withPlane rfl rfl rfl rfl (planeMap_keeps _ hs)
    refine hl.planeInv (fun _ => ⟨hb, fun x y hx hy => ?_⟩) nofun
    exact hc x y hx hy ▸ quantizeOne_le _
  | four =>
    obtain ⟨-, hc, -⟩ := planeMap_spec s.latch.pw s.latch.ph (fun _ _ v => quantizeFour v) hs.canonical
    have hl : PlaneLatched (quantizeFourBody s) := hs.withPlane rfl rfl rfl rfl (planeMap_keeps _ hs)
    refine hl.planeInv nofun (fun _ => ⟨hb, fun x y hx hy => ?_⟩)
    exact hc x y hx hy ▸ quantizeFour_le _

/-- PACK releases the plane, or ends with `BUS_WRITE` (R105, R106, R117). -/
theorem packBody_leaves {s : State} (hs : PlaneBuffer s) : (packBody s).Leaves PlaneInv PlaneInv := by
  rw [packBody_eq, packWith]
  rcases writePacked_cases (packedBytes (layoutOf s.latch.outBpp s.latch.scan) s.latch s.plane) s with
    ⟨h, -⟩ | ⟨h, -, -⟩ | ⟨h, -, -⟩ <;> rw [h]
  · trivial
  · have kept : PlaneBuffer { s with
        mem := storeDest s.latch (fun i => Config.freeByte (s.freeCount + i)) s.mem
        freeCount := s.freeCount + s.latch.outLen.toNat } := hs.of_same rfl rfl
    exact kept.failed rfl
  · exact PlaneBuffer.released (hs.of_same rfl rfl) rfl

/-- A LUMA8 plane of the 1-bpp depth is there for ADJUST and DITHER, or they end with `SEQUENCE` (R76). -/
theorem requireLumaForOneBpp_leaves {s : State} (hs : PlaneInv s) :
    (requireLumaForOneBpp s).Leaves (fun t => PlaneLatched t ∧ t.status.pk = .luma8) PlaneInv := by
  by_cases h : s.status.pk = .luma8 ∧ s.latch.outBpp = .one
  · obtain ⟨hk, hb⟩ := h
    rw [requireLumaForOneBpp_met hk hb]
    exact ⟨hs.planeLatched (by simp [hk]), hk⟩
  · rw [requireLumaForOneBpp_unmet h]; exact planeInv_raiseError _ hs

/-- A LUMA8 plane is there for QUANTIZE, or it ends with `SEQUENCE` (R76). -/
theorem requireLuma_leaves {s : State} (hs : PlaneInv s) : (requireLuma s).Leaves PlaneLatched PlaneInv := by
  by_cases hk : s.status.pk = .luma8
  · rw [requireLuma_met hk]; exact hs.planeLatched (by simp [hk])
  · rw [requireLuma_unmet hk]; exact planeInv_raiseError _ hs

theorem requireLevels_leaves {s : State} (hs : PlaneInv s) : (requireLevels s).Leaves PlaneInv PlaneInv := by
  by_cases hk : s.status.pk = .level1 ∨ s.status.pk = .level4
  · rw [requireLevels_met hk]; exact hs
  · rw [requireLevels_unmet hk]; exact planeInv_raiseError _ hs

/-- Every row's meaning keeps the plane invariant. -/
theorem planeInv_exec (i : Instr) : ∀ {s t : State}, PlaneInv s → exec i s = .next t → PlaneInv t := by
  refine exec_rows (C := fun f => ∀ {s t}, PlaneInv s → f s = .next t → PlaneInv t) ?nop ?convert ?reduce ?adjust
    ?dither ?quantize ?pack ?illegal i <;> intros
  case nop s t hs h => injection h with h; exact h ▸ hs.of_accessFrame (accessFrame_cmdWrite _ _)
  case convert s t hs h =>
    have reduced := andThen_leaves (startConversion_leaves hs) (fun _ => reduceBody_leaves)
    have adjusted := thenDo_leaves reduced (fun _ h => oneBppStages_latched h.1)
    have quantized := thenDo_leaves adjusted (fun _ => quantizeBody_planeInv)
    exact planeInv_of_leaves (andThen_leaves quantized (fun _ h => packBody_leaves h.buffer)) h
  case reduce s t hs h =>
    have reduced := andThen_leaves (checkAndLatch_leaves hs) (fun _ => reduceBody_leaves)
    exact planeInv_of_leaves (reduced.imp (fun _ h => h.1.luma h.2)) h
  case adjust s t hs h =>
    refine planeInv_of_leaves (thenDo_leaves (requireLumaForOneBpp_leaves hs) (fun u hu => ?_)) h
    exact (adjustBody_latched hu.1).luma hu.2
  case dither s t hs h =>
    refine planeInv_of_leaves (thenDo_leaves (requireLumaForOneBpp_leaves hs) (fun u hu => ?_)) h
    exact (ditherBody_latched hu.1).luma (by simp [hu.2])
  case quantize s t hs h =>
    exact planeInv_of_leaves (thenDo_leaves (requireLuma_leaves hs) (fun _ => quantizeBody_planeInv)) h
  case pack s t hs h =>
    exact planeInv_of_leaves (andThen_leaves (requireLevels_leaves hs) (fun _ h => packBody_leaves h.buffer)) h
  case illegal w s t hs h => injection h with h; exact h ▸ planeInv_raiseError _ hs

end Sys2Proof.Machine
end

section
/-! SUPPORT. No stage of a command reads or writes the conversion registers. -/

namespace Sys2Proof.Machine

/-- The state with other values in the conversion registers. -/
def withRegs (r : ConvRegs) (s : State) : State := { s with regs := r }

@[simp] theorem withRegs_latch (r : ConvRegs) (s : State) : (withRegs r s).latch = s.latch := rfl

/-- Progress with `f` done to its state. -/
def Progress.mapState (f : State → State) : Progress → Progress
  | .going s => .going (f s)
  | .raised e s => .raised e (f s)
  | .stuck r => .stuck r

/-- A stage neither reads nor writes the conversion registers. -/
def RegsBlind (f : State → Progress) : Prop := ∀ r s, f (withRegs r s) = (f s).mapState (withRegs r)

theorem RegsBlind.andThen {f g : State → Progress} (hf : RegsBlind f) (hg : RegsBlind g) :
    RegsBlind (fun s => (f s).andThen g) := by
  intro r s
  dsimp only
  rw [hf r s]
  cases f s with
  | going t => exact hg r t
  | raised e t => rfl
  | stuck q => rfl

theorem RegsBlind.thenDo {f : State → Progress} {g : State → State} (hf : RegsBlind f)
    (hg : ∀ r s, g (withRegs r s) = withRegs r (g s)) : RegsBlind (fun s => (f s).thenDo g) :=
  hf.andThen (fun r s => congrArg Progress.going (hg r s))

/-- The end of a command neither reads nor writes the conversion registers. -/
theorem RegsBlind.outcome {f : State → Progress} (hf : RegsBlind f) (r : ConvRegs) (s : State) :
    (f (withRegs r s)).outcome = mapNext (withRegs r) (f s).outcome := by
  rw [hf r s]
  cases f s <;> rfl

/-- Both ways of a test that the conversion registers do not enter. -/
theorem mapState_ite (f : State → State) (c : Prop) [Decidable c] (p q : Progress) :
    (if c then p else q).mapState f = if c then p.mapState f else q.mapState f := apply_ite _ _ _ _

theorem checkAndLatch_blind : RegsBlind checkAndLatch := by
  intro r s
  cases h : latchOf s.platform.planeCapacity s.snap with
  | error e => rw [checkAndLatch_error h, checkAndLatch_error (s := withRegs r s) h]; rfl
  | ok L => rw [checkAndLatch_ok h, checkAndLatch_ok (s := withRegs r s) h]; rfl

theorem requireLumaForOneBpp_blind : RegsBlind requireLumaForOneBpp := by
  intro r s
  simp only [requireLumaForOneBpp, mapState_ite]
  rfl

theorem requireLuma_blind : RegsBlind requireLuma := by
  intro r s
  simp only [requireLuma, mapState_ite]
  rfl

theorem requireLevels_blind : RegsBlind requireLevels := by
  intro r s
  simp only [requireLevels, mapState_ite]
  rfl

theorem requireSourceClear_blind : RegsBlind requireSourceClear := by
  intro r s
  simp only [requireSourceClear, mapState_ite]
  rfl

theorem requireDestClear_blind : RegsBlind requireDestClear := by
  intro r s
  simp only [requireDestClear, mapState_ite]
  rfl

theorem fillPlane_blind : RegsBlind fillPlane := by
  intro r s
  simp only [fillPlane, mapState_ite]
  rfl

theorem writeDest_blind (out : List Byte) : RegsBlind (writeDest out) := by
  intro r s
  simp only [writeDest, mapState_ite]
  rfl

theorem reduceBody_blind : RegsBlind reduceBody := requireSourceClear_blind.andThen fillPlane_blind

theorem packBody_blind : RegsBlind packBody := fun r s =>
  requireDestClear_blind.andThen (writeDest_blind (packedBytes (layoutOf s.latch.outBpp s.latch.scan) s.latch s.plane))
    r s

theorem ditherBody_withRegs (r : ConvRegs) (s : State) : ditherBody (withRegs r s) = withRegs r (ditherBody s) := by
  simp only [ditherBody, withRegs_latch]
  cases s.latch.dither <;> rfl

theorem quantizeBody_withRegs (r : ConvRegs) (s : State) :
    quantizeBody (withRegs r s) = withRegs r (quantizeBody s) := by
  simp only [quantizeBody, withRegs_latch]
  cases s.latch.outBpp <;> rfl

theorem oneBppStages_withRegs (r : ConvRegs) (s : State) :
    oneBppStages (withRegs r s) = withRegs r (oneBppStages s) := by
  simp only [oneBppStages, withRegs_latch]
  cases s.latch.outBpp with
  | four => rfl
  | one =>
    by_cases h : s.latch.dither = .none
    · simp only [h, ↓reduceIte]
      rfl
    · simp only [h, ↓reduceIte]
      exact ditherBody_withRegs r (adjustBody s)

theorem cmdWrite_zero_withRegs (r : ConvRegs) (s : State) :
    cmdWrite 0x00000000#32 (withRegs r s) = withRegs r (cmdWrite 0x00000000#32 s) := by
  rcases cmdWrite_cases 0x00000000#32 s with ⟨hb, h⟩ | ⟨hb, -, h⟩ | ⟨-, hw, -⟩
  · rw [h]; exact if_pos hb
  · rw [h]; simp [cmdWrite, withRegs, hb]
  · exact absurd rfl hw

/-- No row's meaning reads or writes the conversion registers. -/
theorem exec_withRegs (i : Instr) (r : ConvRegs) : ∀ s, exec i (withRegs r s) = mapNext (withRegs r) (exec i s) := by
  refine exec_rows (C := fun f => ∀ s, f (withRegs r s) = mapNext (withRegs r) (f s)) ?nop ?convert ?reduce ?adjust
    ?dither ?quantize ?pack ?illegal i
  case nop => exact fun s => congrArg Host.Outcome.next (cmdWrite_zero_withRegs r s)
  case convert =>
    have started := checkAndLatch_blind.andThen requireDestClear_blind
    have adjusted := (started.andThen reduceBody_blind).thenDo oneBppStages_withRegs
    exact ((adjusted.thenDo quantizeBody_withRegs).andThen packBody_blind).outcome r
  case reduce => exact (checkAndLatch_blind.andThen reduceBody_blind).outcome r
  case adjust => exact (requireLumaForOneBpp_blind.thenDo (g := adjustBody) (fun _ _ => rfl)).outcome r
  case dither => exact (requireLumaForOneBpp_blind.thenDo ditherBody_withRegs).outcome r
  case quantize => exact (requireLuma_blind.thenDo quantizeBody_withRegs).outcome r
  case pack => exact (requireLevels_blind.andThen packBody_blind).outcome r
  case illegal => exact fun _ _ => rfl

end Sys2Proof.Machine
end

section
/-! SUPPORT. The status word and `INTEN` in numbers, and the slots of the register window. -/

namespace Sys2Proof.Machine

theorem PlaneKind.code_le (k : PlaneKind) : k.code ≤ 3 := by cases k <;> decide

/-- The number of the status word. -/
theorem statusWord_toNat (t : Status) :
    (statusWord t).toNat = t.busy.toNat + t.done.toNat * 2 + t.err.toNat * 4 + t.ovr.toNat * 8
      + t.errcode.toNat * 16 + t.pk.code * 256 := by
  have hb := t.busy.toNat_le; have hd := t.done.toNat_le; have he := t.err.toNat_le; have ho := t.ovr.toNat_le
  have hc := t.errcode.isLt
  have hk := t.pk.code_le
  exact Nat.mod_eq_of_lt (by omega)

/-- The bits of the status word's number that hold each field. -/
theorem statusWord_fields (t : Status) :
    (statusWord t).toNat / 2 ^ 0 % 2 = t.busy.toNat ∧ (statusWord t).toNat / 2 ^ 1 % 2 = t.done.toNat
      ∧ (statusWord t).toNat / 2 ^ 2 % 2 = t.err.toNat ∧ (statusWord t).toNat / 2 ^ 3 % 2 = t.ovr.toNat
      ∧ (statusWord t).toNat / 2 ^ 4 % 2 ^ 4 = t.errcode.toNat ∧ (statusWord t).toNat / 2 ^ 8 % 2 ^ 2 = t.pk.code
      ∧ (statusWord t).toNat / 2 ^ 10 = 0 := by
  have hb := t.busy.toNat_le; have hd := t.done.toNat_le; have he := t.err.toNat_le; have ho := t.ovr.toNat_le
  have hc := t.errcode.isLt
  have hk := t.pk.code_le
  rw [statusWord_toNat]
  omega

/-- A bit of a word, from the number of the word. -/
theorem getLsbD_of_toNat {w : Word} {i : Nat} {b : Bool} (h : w.toNat / 2 ^ i % 2 = b.toNat) : w.getLsbD i = b := by
  rw [BitVec.getLsbD, Nat.testBit_eq_decide_div_mod_eq, h]
  cases b <;> rfl

/-- The number of a field of a word. -/
theorem extractLsb'_toNat_div (w : Word) (i n : Nat) : (w.extractLsb' i n).toNat = w.toNat / 2 ^ i % 2 ^ n := by
  rw [BitVec.extractLsb'_toNat, Nat.shiftRight_eq_div_pow]

/-- What a read of slot `k` answers (R8, R9, R16, R17, R20, R21, R22). -/
theorem regRead_slot (s : State) {k : Nat} (hk : k < 16) :
    regRead s (regOfSlot k) = [0x00000000#32, statusWord s.status, intenWord s.inten, s.regs.config, s.regs.width,
      s.regs.height, s.regs.brightness, s.regs.contrast, s.regs.srcBase, s.regs.dstBase, s.rowSize,
      s.outLen].getD k 0x00000000#32 := by
  interval_cases k <;> rfl

/-- What a write of slot 3 or above does: the slots of the conversion registers store the word, the others ignore it
(R17, R20, R21, R22). -/
theorem regWrite_slot (s : State) (w : Word) {k : Nat} (hlo : 3 ≤ k) (hk : k < 16) :
    regWrite (regOfSlot k) w s = { s with
      regs := {
        config := if k = 3 then w else s.regs.config
        width := if k = 4 then w else s.regs.width
        height := if k = 5 then w else s.regs.height
        brightness := if k = 6 then w else s.regs.brightness
        contrast := if k = 7 then w else s.regs.contrast
        srcBase := if k = 8 then w else s.regs.srcBase
        dstBase := if k = 9 then w else s.regs.dstBase } } := by
  interval_cases k <;> rfl

end Sys2Proof.Machine
end

section
/-! SUPPORT. The obligations about the state: its registers, what every step keeps, and the reset state. -/

namespace Sys2Proof.Machine

/-- Settles O56: every end of a command, every host access and the reset input keep the status invariant. -/
theorem stepKeepsErrorCodeRule : Obligations.StepKeepsErrorCodeRule := fun _ _ hs h =>
  step_keeps (P := StatusInv) (inbox := fun _ _ hs => hs.of_same rfl rfl)
    (command := fun i _ _ hs h => statusInv_commandEnd hs (exec_commandEnd i h))
    (access := fun _ _ => statusInv_accessEffect) (reset := fun s _ => statusInv_blockReset s) hs h

/-- Settles O58: a command keeps the plane invariant by its stages, a host access writes nothing the invariant reads,
and the reset input releases the plane. -/
theorem stepKeepsPlaneConsistent : Obligations.StepKeepsPlaneConsistent := fun _ _ hs h =>
  step_keeps (P := PlaneInv)
    (inbox := fun _ _ hs => hs.of_same rfl rfl rfl rfl rfl rfl)
    (command := fun i _ _ => planeInv_exec i)
    (access := fun _ _ hs ha => hs.of_accessFrame (accessFrame_of_effect ha))
    (reset := fun s hs => PlaneBuffer.released (s := blockReset s) ⟨hs.platform, rfl, rfl⟩ rfl) hs h

/-- Settles O52: no stage of a command reads or writes the conversion registers. -/
theorem registerWritesDoNotReachCommands : Obligations.RegisterWritesDoNotReachCommands :=
  fun i s r => exec_withRegs i r s

/-- Settles O59: the parameters and the pending-command invariant, each by the rule of what every step keeps. -/
theorem stepKeepsParametersAndPending : Obligations.StepKeepsParametersAndPending := fun s _ h =>
  ⟨step_keeps (P := fun u => u.platform = s.platform) (inbox := fun _ _ hu => hu)
      (command := fun i _ _ hu h => (commandEnd_platform (exec_commandEnd i h)).trans hu)
      (access := fun _ _ hu ha => (accessFrame_of_effect ha).platform.trans hu) (reset := fun _ hu => hu) rfl h,
    fun hs => step_keeps (P := PendingInv) (inbox := fun _ _ hs => hs.of_same rfl rfl rfl)
      (command := fun i _ _ hs h => pendingInv_commandEnd hs (exec_commandEnd i h))
      (access := fun _ _ => pendingInv_accessEffect) (reset := fun _ _ => pendingInv_of_idle rfl rfl) hs h⟩

/-- Settles O44, from the number of the status word. -/
theorem statusWordLayout : Obligations.StatusWordLayout := by
  intro t
  obtain ⟨busy, done, err, ovr, code, kind, high⟩ := statusWord_fields t
  refine ⟨getLsbD_of_toNat busy, getLsbD_of_toNat done, getLsbD_of_toNat err, getLsbD_of_toNat ovr,
    BitVec.eq_of_toNat_eq ?_, ?_, BitVec.eq_of_toNat_eq ?_⟩
  · rw [extractLsb'_toNat_div, code]
  · rw [extractLsb'_toNat_div, kind]
    cases t.pk <;> rfl
  · rw [extractLsb'_toNat_div, high]
    rfl

/-- Settles O46: the output's two ORs, the write of slot 2, and the number of the three bits kept. -/
theorem irqIsTheMaskedOr : Obligations.IrqIsTheMaskedOr := by
  refine ⟨fun s => ?_, fun s w rest h => step_regWrite (k := 2) (by omega) h, fun w => ?_⟩
  · simp only [irq, Bool.or_eq_true, Bool.and_eq_true, or_assoc]
  · rw [intenWord, intenAfterWrite, BitVec.toNat_setWidth, extractLsb'_toNat_div]
    omega

/-- Settles O47: the step takes the read of the slot, which answers the slot's word. -/
theorem registerReadsHaveNoSideEffect : Obligations.RegisterReadsHaveNoSideEffect := by
  intro s k rest hk h
  rw [step_regRead hk h, regRead_slot _ hk]
  rfl

/-- Settles O48: the step takes the write of the slot, which stores the word or ignores it. -/
theorem conversionRegistersStoreWrites : Obligations.ConversionRegistersStoreWrites := by
  intro s k w rest hlo hk h
  rw [step_regWrite hk h, regWrite_slot _ w hlo hk]
  rfl

/-- Settles O51, by the frame of a host access. -/
theorem hostAccessesCannotStopACommand : Obligations.HostAccessesCannotStopACommand := by
  intro s t e rest hi he hr h
  obtain ⟨pk, plane, latch, rowSize, outLen, platform, running⟩ :=
    accessFrame_of_effect (eventTurn_effect he hr (step_event hi ▸ h))
  exact ⟨pk, plane, latch, rowSize, outLen, platform, running⟩

/-- Settles O53: the configuration 0 is illegal because its depth is neither 1 nor 4. -/
theorem resetStateValues : Obligations.ResetStateValues := by
  refine ⟨rfl, rfl, rfl, rfl, rfl, rfl, rfl, ?_⟩
  rintro ⟨depth, -⟩
  exact absurd depth (by decide)

/-- Settles O55: in reset `ERR` and `BUSY` are 0 and the plane is released. -/
theorem invariantsHoldAtReset : Obligations.InvariantsHoldAtReset :=
  ⟨statusInv_of_clear rfl rfl, ⟨rfl, rfl⟩, PlaneBuffer.released ⟨by decide, rfl, rfl⟩ rfl, pendingInv_of_idle rfl rfl⟩

end Sys2Proof.Machine
end

section
/-! SUPPORT. Memory through the stages of a command and through a host access: only PACK's destination writes and the
host's own writes change it, and both keep the memory invariant. -/

namespace Sys2Proof.Machine

/-- The destination writes keep the canonical form inside the memory space, whatever the latch and the bytes (R36). -/
theorem memoryInv_storeDest (L : Latch) (f : Nat → Byte) {m : Memory}
    (h : Memory.wf m = true ∧ Memory.below memorySpace m = true) :
    Memory.wf (storeDest L f m) = true ∧ Memory.below memorySpace (storeDest L f m) = true :=
  ⟨(storeDest_spec L f h.1).1, storeDest_below L f h.2⟩

/-- The invariant reads memory only. -/
theorem MemoryInv.of_same {s t : State} (hs : MemoryInv s) (h : t.mem = s.mem) : MemoryInv t := by
  unfold MemoryInv; rwa [h]

/-- A next stage that keeps what the stages before it have kept. -/
theorem andThen_keeps {P : State → Prop} {r : Progress} {f : State → Progress} (hr : r.Holds P)
    (hf : ∀ s, P s → (f s).Holds P) : (r.andThen f).Holds P := andThen_holds hr hf (fun _ h => h)

/-- A stage that cannot fail and keeps what the stages before it have kept. -/
theorem thenDo_keeps {P : State → Prop} {r : Progress} {f : State → State} (hr : r.Holds P)
    (hf : ∀ s, P s → P (f s)) : (r.thenDo f).Holds P := andThen_keeps hr hf

theorem memoryInv_checkAndLatch {s : State} (hs : MemoryInv s) : (checkAndLatch s).Holds MemoryInv := by
  cases h : latchOf s.platform.planeCapacity s.snap with
  | error e => rw [checkAndLatch_error h]; exact hs
  | ok L => rw [checkAndLatch_ok h]; exact hs.of_same rfl

theorem memoryInv_requireDestClear {s : State} (hs : MemoryInv s) : (requireDestClear s).Holds MemoryInv := by
  rcases requireDestClear_cases s with ⟨h, -⟩ | ⟨h, -⟩ <;> rw [h]
  · trivial
  · exact hs

theorem memoryInv_reduceBody {s : State} (hs : MemoryInv s) : (reduceBody s).Holds MemoryInv := by
  rcases reduceBody_cases s with ⟨h, -⟩ | ⟨h, -, -⟩ | ⟨h, -, -⟩ <;> rw [h]
  · trivial
  · exact hs.of_same rfl
  · exact hs.of_same rfl

/-- PACK writes its bytes, or free ones after `BUS_WRITE`, at reduced addresses only (R36, R105, R106). -/
theorem memoryInv_packBody {s : State} (hs : MemoryInv s) : (packBody s).Holds MemoryInv := by
  rw [packBody_eq, packWith]
  rcases writePacked_cases (packedBytes (layoutOf s.latch.outBpp s.latch.scan) s.latch s.plane) s with
    ⟨h, -⟩ | ⟨h, -, -⟩ | ⟨h, -, -⟩ <;> rw [h]
  · trivial
  · exact memoryInv_storeDest _ _ hs
  · exact memoryInv_storeDest _ _ hs

/-- A command whose stages keep the memory invariant ends with it. -/
theorem memoryInv_outcome {r : Progress} {t : State} (hr : r.Holds MemoryInv) (h : r.outcome = .next t) :
    MemoryInv t := outcome_holds hr h (fun _ hs => hs.of_same rfl) (fun _ _ hs => hs.of_same rfl)

theorem cmdWrite_mem (w : Word) (s : State) : (cmdWrite w s).mem = s.mem := by
  rcases cmdWrite_cases w s with ⟨-, h⟩ | ⟨-, -, h⟩ | ⟨-, -, h⟩ <;> rw [h]
  rfl

/-- Every row's meaning keeps the memory invariant. -/
theorem memoryInv_exec (i : Instr) : ∀ {s t : State}, MemoryInv s → exec i s = .next t → MemoryInv t := by
  refine exec_rows (C := fun f => ∀ {s t}, MemoryInv s → f s = .next t → MemoryInv t) ?nop ?convert ?reduce ?adjust
    ?dither ?quantize ?pack ?illegal i <;> intros
  case nop s t hs h => injection h with h; exact h ▸ hs.of_same (cmdWrite_mem _ s)
  case convert s t hs h =>
    have started := andThen_keeps (memoryInv_checkAndLatch hs) (fun _ => memoryInv_requireDestClear)
    have reduced := andThen_keeps started (fun _ => memoryInv_reduceBody)
    have adjusted := thenDo_keeps reduced (fun u hu => hu.of_same (oneBppStages_mem u))
    have quantized := thenDo_keeps adjusted (fun u hu => hu.of_same (quantizeBody_mem u))
    exact memoryInv_outcome (andThen_keeps quantized (fun _ => memoryInv_packBody)) h
  case reduce s t hs h =>
    exact memoryInv_outcome (andThen_keeps (memoryInv_checkAndLatch hs) (fun _ => memoryInv_reduceBody)) h
  case adjust s t hs h =>
    exact memoryInv_outcome (thenDo_keeps (require_holds hs).1 (fun u hu => hu.of_same (adjustBody_mem u))) h
  case dither s t hs h =>
    exact memoryInv_outcome (thenDo_keeps (require_holds hs).1 (fun u hu => hu.of_same (ditherBody_mem u))) h
  case quantize s t hs h =>
    exact memoryInv_outcome (thenDo_keeps (require_holds hs).2.1 (fun u hu => hu.of_same (quantizeBody_mem u))) h
  case pack s t hs h =>
    exact memoryInv_outcome (andThen_keeps (require_holds hs).2.2 (fun _ => memoryInv_packBody)) h
  case illegal w s t hs h => exact memoryInv_outcome (r := .raised .illegalCmd s) hs h

/-- A host access keeps the memory invariant: the one that writes memory has a 32-bit address (R35). -/
theorem memoryInv_accessEffect {s t : State} (hs : MemoryInv s) (h : AccessEffect s t) : MemoryInv t := by
  cases h with
  | command w q => exact hs.of_same (cmdWrite_mem w s)
  | clearFlags w q => exact hs.of_same rfl
  | store r v q n => exact hs.of_same rfl
  | memWrite a v => exact ⟨Memory.wf_write hs.1 _ v, Memory.below_write v hs.2 a.isLt⟩

end Sys2Proof.Machine
end

section
/-! SUPPORT. What REDUCE reads of memory: the three source bytes of each pixel (R43, R86). -/

namespace Sys2Proof.Machine

/-- The state with another memory behind the port. -/
def withMem (m : Memory) (s : State) : State := { s with mem := m }

@[simp] theorem withMem_latch (m : Memory) (s : State) : (withMem m s).latch = s.latch := rfl
@[simp] theorem withMem_plane (m : Memory) (s : State) : (withMem m s).plane = s.plane := rfl
@[simp] theorem withMem_mem (m : Memory) (s : State) : (withMem m s).mem = m := rfl
@[simp] theorem withMem_platform (m : Memory) (s : State) : (withMem m s).platform = s.platform := rfl

/-- The memory `m` agrees with the state's on the three source bytes of every pixel that the latch names (R43). -/
def SameSource (m : Memory) (s : State) : Prop :=
  ∀ x y k, x < s.latch.w → y < s.latch.ph → k < 3 →
    Memory.read m (portAddress (sourceAddress s.latch x y + k))
      = Memory.read s.mem (portAddress (sourceAddress s.latch x y + k))

/-- A read on the port depends on the byte at its reduced address only (R41). -/
theorem portRead_withMem {m : Memory} {s : State} {a : Nat}
    (h : Memory.read m (portAddress a) = Memory.read s.mem (portAddress a)) :
    portRead (withMem m s) a = portRead s a := by
  simp only [portRead, withMem_mem, withMem_platform, h]

/-- A cell depends on the three source bytes of its pixel only; the pad column on none (R85). -/
theorem reducedCell_withMem {m : Memory} {s : State} (h : SameSource m s) {x y : Nat} (hy : y < s.latch.ph) :
    reducedCell (withMem m s) x y = reducedCell s x y := by
  unfold reducedCell
  by_cases hx : x < s.latch.w
  · have blue := portRead_withMem (h x y 0 hx hy (by omega))
    have green := portRead_withMem (h x y 1 hx hy (by omega))
    have red := portRead_withMem (h x y 2 hx hy (by omega))
    rw [Nat.add_zero] at blue
    rw [withMem_latch, blue, green, red]
    rfl
  · rw [withMem_latch, if_neg hx, if_neg hx]

/-- Two row-by-row loops with the same turns agree. -/
theorem forCells_congr {σ : Type} {w h : Nat} {f g : Nat → Nat → σ → σ} (s : σ)
    (hfg : ∀ x y t, x < w → y < h → f x y t = g x y t) : forCells w h f s = forCells w h g s :=
  forRange_congr s fun y t hy => forRange_congr t fun x u hx => hfg x y u hx hy

/-- REDUCE's loops depend on no other byte of memory, whether or not a read fails. -/
theorem reducedPlane_withMem {m : Memory} {s : State} (h : SameSource m s) :
    reducedPlane (withMem m s) = reducedPlane s := by
  unfold reducedPlane
  rw [withMem_latch, withMem_plane]
  refine forCells_congr _ fun x y a _ hy => ?_
  unfold reduceCell
  rw [reducedCell_withMem h hy, withMem_latch]

theorem fillPlane_withMem {m : Memory} {s : State} (h : SameSource m s) :
    fillPlane (withMem m s) = (fillPlane s).mapState (withMem m) := by
  simp only [fillPlane, reducedPlane_withMem h, mapState_ite]
  rfl

theorem reduceBody_withMem {m : Memory} {s : State} (h : SameSource m s) :
    reduceBody (withMem m s) = (reduceBody s).mapState (withMem m) := by
  have clear : requireSourceClear (withMem m s) = (requireSourceClear s).mapState (withMem m) := by
    simp only [requireSourceClear, mapState_ite]
    rfl
  rw [reduceBody, reduceBody, clear]
  rcases requireSourceClear_cases s with ⟨hc, -⟩ | ⟨hc, -⟩ <;> rw [hc]
  · rfl
  · exact fillPlane_withMem h

/-- The end of a command with another memory. -/
theorem outcome_mapState_withMem (m : Memory) (r : Progress) :
    (r.mapState (withMem m)).outcome = mapNext (withMem m) r.outcome := by
  cases r <;> rfl

/-- The plane of a latch that passes the checks is as high as its image (R29). -/
theorem ph_of_checksPass {s : State} {L : Latch} (h : ChecksPass s L) : L.ph = L.h := by
  obtain ⟨f, -, -, -, -, -, -, rfl⟩ := latchOf_ok h
  rfl

end Sys2Proof.Machine
end

section
/-! SUPPORT. Where a step can stop (R46): the regions that each command looks at. -/

namespace Sys2Proof.Machine

/-- What holds of the seven commands and of the illegal words holds of what any word decodes to (R67, R68, R75). -/
theorem decode_rows {C : Instr → Prop} (nop : C .nop) (convert : C .convert) (reduce : C .reduce) (adjust : C .adjust)
    (dither : C .dither) (quantize : C .quantize) (pack : C .pack) (illegal : ∀ w, C (.illegal w)) (w : Word) :
    C (decode w) := by
  unfold decode
  split
  · exact illegal w
  · split
    · exact nop
    · exact convert
    · exact reduce
    · exact adjust
    · exact dither
    · exact quantize
    · exact pack
    · exact illegal w

/-- No row's meaning is refused. -/
theorem exec_not_refused (i : Instr) (q : Refusal) : ∀ s, exec i s ≠ .refused q := by
  refine exec_rows (C := fun f => ∀ s, f s ≠ .refused q) ?nop ?convert ?reduce ?adjust ?dither ?quantize ?pack
    ?illegal i <;> intros
  case nop => nofun
  case convert => rw [execConvert]; exact outcome_not_refused _ q
  case reduce => rw [execReduce]; exact outcome_not_refused _ q
  case adjust => rw [execAdjust]; exact outcome_not_refused _ q
  case dither => rw [execDither]; exact outcome_not_refused _ q
  case quantize => rw [execQuantize]; exact outcome_not_refused _ q
  case pack => rw [execPack]; exact outcome_not_refused _ q
  case illegal => rw [execIllegal]; exact outcome_not_refused _ q

/-- A step that gives no next state is the engine's, with a command running. -/
theorem step_stopped {s : State} {o : Host.Outcome State Fault Refusal} (h : step s = o) (ho : ∀ t, o ≠ .next t) :
    s.status.busy = true ∧ ∃ l, exec (decode s.pend) (withInbox l s) = o := by
  have engine : ∀ l, engineTurn (withInbox l s) = o →
      s.status.busy = true ∧ ∃ l, exec (decode s.pend) (withInbox l s) = o := by
    intro l hl
    unfold engineTurn at hl
    split at hl
    · exact ⟨‹_›, l, hl⟩
    · exact absurd hl.symm (ho _)
  cases hi : s.inbox with
  | nil => exact engine s.inbox (step_engine hi ▸ h)
  | cons e rest =>
    rw [step_event hi] at h
    cases e with
    | engine => exact engine rest h
    | _ => exact absurd h.symm (ho _)

/-! ## The duty on the regions -/

theorem requireDestClear_stuck {s : State} (h : ¬ DestClear s.platform s.latch) :
    requireDestClear s = .stuck .regionOverlapsWindow := by
  rcases requireDestClear_cases s with ⟨hs, -⟩ | ⟨-, hc⟩
  · exact hs
  · exact absurd hc h

theorem reduceBody_stuck {s : State} (h : ¬ SourceClear s.platform s.latch) :
    reduceBody s = .stuck .regionOverlapsWindow := by
  rcases reduceBody_cases s with ⟨hs, -⟩ | ⟨-, -, hc⟩ | ⟨-, -, hc⟩
  · exact hs
  · exact absurd hc h
  · exact absurd hc h

/-- REDUCE stops where its source region overlaps the window. -/
theorem execReduce_stops {s : State} {L : Latch} (hL : ChecksPass s L) (h : ¬ SourceClear s.platform L) :
    execReduce s = .fault .regionOverlapsWindow := by
  rw [execReduce, checkAndLatch_ok hL, andThen_going, reduceBody_stuck (s := writeLatch L s) h, outcome_stuck]

/-- CONVERT stops where either of its regions overlaps the window. -/
theorem execConvert_stops {s : State} {L : Latch} (hL : ChecksPass s L)
    (h : ¬ SourceClear s.platform L ∨ ¬ DestClear s.platform L) : execConvert s = .fault .regionOverlapsWindow := by
  have stopped : (startConversion s).andThen reduceBody = .stuck .regionOverlapsWindow := by
    rw [startConversion, checkAndLatch_ok hL, andThen_going]
    rcases requireDestClear_cases (writeLatch L s) with ⟨hs, -⟩ | ⟨hg, hc⟩
    · rw [hs, andThen_stuck]
    · rw [hg, andThen_going]
      exact reduceBody_stuck (s := writeLatch L s) (h.resolve_right (not_not_intro hc))
  rw [execConvert, stopped]
  rfl

/-- PACK stops where it finds levels and its destination region overlaps the window. -/
theorem execPack_stops {s : State} (hk : s.status.pk = .level1 ∨ s.status.pk = .level4)
    (h : ¬ DestClear s.platform s.latch) : execPack s = .fault .regionOverlapsWindow := by
  rw [execPack, requireLevels_met hk, andThen_going, packBody, packWith, writePacked, requireDestClear_stuck h,
    andThen_stuck, outcome_stuck]

/-- A PACK row means what PACK means (R68). -/
theorem exec_of_core_pack {i : Instr} (h : i.core = .pack) : exec i = execPack := by
  obtain ⟨h4, v4, h1, v1⟩ := execPack_variants
  cases i with
  | pack => rfl
  | pack4h => exact h4
  | pack4v => exact v4
  | pack1h => exact h1
  | pack1v => exact v1
  | _ => cases h

/-! ## Where a command can stop -/

/-- The command stops only where `C` holds, and where it goes on its state meets `G`. -/
def Progress.StopsOnlyIf (G : State → Prop) (C : Prop) : Progress → Prop
  | .going s => G s
  | .raised _ _ => True
  | .stuck _ => C

theorem andThen_stopsOnlyIf {G G' : State → Prop} {C : Prop} {r : Progress} {f : State → Progress}
    (hr : r.StopsOnlyIf G C) (hf : ∀ s, G s → (f s).StopsOnlyIf G' C) : (r.andThen f).StopsOnlyIf G' C := by
  cases r with
  | going s => exact hf s hr
  | raised e s => trivial
  | stuck q => exact hr

theorem thenDo_stopsOnlyIf {G : State → Prop} {C : Prop} {r : Progress} {f : State → State}
    (hr : r.StopsOnlyIf G C) (hf : ∀ s, G s → G (f s)) : (r.thenDo f).StopsOnlyIf G C := andThen_stopsOnlyIf hr hf

theorem Progress.StopsOnlyIf.imp {G G' : State → Prop} {C C' : Prop} {r : Progress} (hr : r.StopsOnlyIf G C)
    (hg : ∀ s, G s → G' s) (hc : C → C') : r.StopsOnlyIf G' C' := by
  cases r with
  | going s => exact hg s hr
  | raised e s => trivial
  | stuck q => exact hc hr

theorem outcome_fault {G : State → Prop} {C : Prop} {r : Progress} {q : Fault} (hr : r.StopsOnlyIf G C)
    (h : r.outcome = .fault q) : C := by
  cases r with
  | stuck _ => exact hr
  | going s => cases h
  | raised e s => cases h

/-- The latch and the parameters, which the regions depend on, are as in `s`. -/
def SameRegions (s t : State) : Prop := t.latch = s.latch ∧ t.platform = s.platform

/-- The latch is the one that the checks on `s` give, and the parameters are those of `s`. -/
def LatchedFrom (s t : State) : Prop := ChecksPass s t.latch ∧ t.platform = s.platform

theorem LatchedFrom.of_same {s t u : State} (h : LatchedFrom s t) (hu : SameRegions t u) : LatchedFrom s u := by
  obtain ⟨hc, hp⟩ := h
  obtain ⟨hl, hp'⟩ := hu
  exact ⟨hl ▸ hc, hp'.trans hp⟩

theorem checkAndLatch_stopsOnlyIf (s : State) (C : Prop) : (checkAndLatch s).StopsOnlyIf (LatchedFrom s) C := by
  cases h : latchOf s.platform.planeCapacity s.snap with
  | error e => rw [checkAndLatch_error h]; trivial
  | ok L => rw [checkAndLatch_ok h]; exact ⟨h, rfl⟩

theorem requireDestClear_stopsOnlyIf (s : State) :
    (requireDestClear s).StopsOnlyIf (SameRegions s) (¬ DestClear s.platform s.latch) := by
  rcases requireDestClear_cases s with ⟨h, ho⟩ | ⟨h, -⟩ <;> rw [h]
  · exact ne_false_of_eq_true ho
  · exact ⟨rfl, rfl⟩

theorem reduceBody_stopsOnlyIf (s : State) :
    (reduceBody s).StopsOnlyIf (SameRegions s) (¬ SourceClear s.platform s.latch) := by
  rcases reduceBody_cases s with ⟨h, ho⟩ | ⟨h, -, -⟩ | ⟨h, -, -⟩ <;> rw [h]
  · exact ne_false_of_eq_true ho
  · trivial
  · exact ⟨rfl, rfl⟩

theorem packBody_stopsOnlyIf (s : State) :
    (packBody s).StopsOnlyIf (SameRegions s) (¬ DestClear s.platform s.latch) := by
  rw [packBody_eq, packWith]
  rcases writePacked_cases (packedBytes (layoutOf s.latch.outBpp s.latch.scan) s.latch s.plane) s with
    ⟨h, ho⟩ | ⟨h, -, -⟩ | ⟨h, -, -⟩ <;> rw [h]
  · exact ne_false_of_eq_true ho
  · trivial
  · exact ⟨rfl, rfl⟩

/-- A stage of a conversion, which stops for one of the regions of the latch and keeps them. -/
theorem LatchedFrom.next {s t : State} {r : Progress} {O : Prop} {C : Latch → Prop} (ht : LatchedFrom s t)
    (hr : r.StopsOnlyIf (SameRegions t) O) (hO : O → C t.latch) :
    r.StopsOnlyIf (LatchedFrom s) (∃ L, ChecksPass s L ∧ C L) :=
  hr.imp (fun _ => ht.of_same) fun ho => ⟨t.latch, ht.1, hO ho⟩

/-- REDUCE stops only where its source region overlaps the window. -/
theorem execReduce_fault {s : State} {q : Fault} (h : execReduce s = .fault q) :
    ∃ L, ChecksPass s L ∧ ¬ SourceClear s.platform L := by
  have reduced := andThen_stopsOnlyIf
    (checkAndLatch_stopsOnlyIf s (∃ L, ChecksPass s L ∧ ¬ SourceClear s.platform L))
    fun t ht => ht.next (reduceBody_stopsOnlyIf t) fun ho => ht.2 ▸ ho
  exact outcome_fault reduced h

/-- CONVERT stops only where one of its regions overlaps the window. -/
theorem execConvert_fault {s : State} {q : Fault} (h : execConvert s = .fault q) :
    ∃ L, ChecksPass s L ∧ (¬ SourceClear s.platform L ∨ ¬ DestClear s.platform L) := by
  have started := andThen_stopsOnlyIf
    (checkAndLatch_stopsOnlyIf s
      (∃ L, ChecksPass s L ∧ (¬ SourceClear s.platform L ∨ ¬ DestClear s.platform L)))
    fun t ht => ht.next (requireDestClear_stopsOnlyIf t) fun ho => .inr (ht.2 ▸ ho)
  have reduced := andThen_stopsOnlyIf started fun t ht =>
    ht.next (reduceBody_stopsOnlyIf t) fun ho => .inl (ht.2 ▸ ho)
  have adjusted := thenDo_stopsOnlyIf reduced fun t ht =>
    ht.of_same ⟨oneBppStages_latch t, oneBppStages_platform t⟩
  have quantized := thenDo_stopsOnlyIf adjusted fun t ht =>
    ht.of_same ⟨quantizeBody_latch t, quantizeBody_platform t⟩
  have packed := andThen_stopsOnlyIf quantized fun t ht =>
    ht.next (packBody_stopsOnlyIf t) fun ho => .inr (ht.2 ▸ ho)
  exact outcome_fault packed h

/-- PACK stops only where it finds levels and its destination region overlaps the window. -/
theorem execPack_fault {s : State} {q : Fault} (h : execPack s = .fault q) :
    (s.status.pk = .level1 ∨ s.status.pk = .level4) ∧ ¬ DestClear s.platform s.latch := by
  by_cases hk : s.status.pk = .level1 ∨ s.status.pk = .level4
  · rw [execPack, requireLevels_met hk, andThen_going] at h
    exact ⟨hk, outcome_fault (packBody_stopsOnlyIf s) h⟩
  · rw [execPack, requireLevels_unmet hk] at h
    cases h

theorem requireLumaForOneBpp_never_stuck (s : State) :
    (requireLumaForOneBpp s).StopsOnlyIf (fun _ => True) False := by
  by_cases h : s.status.pk = .luma8 ∧ s.latch.outBpp = .one
  · rw [requireLumaForOneBpp_met h.1 h.2]; trivial
  · rw [requireLumaForOneBpp_unmet h]; trivial

theorem requireLuma_never_stuck (s : State) : (requireLuma s).StopsOnlyIf (fun _ => True) False := by
  by_cases hk : s.status.pk = .luma8
  · rw [requireLuma_met hk]; trivial
  · rw [requireLuma_unmet hk]; trivial

/-- A command of a check that never stops and a stage that cannot fail does not stop. -/
theorem thenDo_not_fault {r : Progress} {f : State → State} {q : Fault}
    (hr : r.StopsOnlyIf (fun _ => True) False) : (r.thenDo f).outcome ≠ .fault q :=
  fun h => outcome_fault (thenDo_stopsOnlyIf hr fun _ _ => trivial) h

/-- A decoded word that stops the machine is REDUCE, CONVERT or PACK. -/
theorem exec_decode_fault (w : Word) {s : State} {q : Fault} : exec (decode w) s = .fault q →
    (decode w = .reduce ∧ execReduce s = .fault q) ∨ (decode w = .convert ∧ execConvert s = .fault q)
      ∨ (decode w = .pack ∧ execPack s = .fault q) := by
  refine decode_rows (C := fun i => exec i s = .fault q →
    (i = .reduce ∧ execReduce s = .fault q) ∨ (i = .convert ∧ execConvert s = .fault q)
      ∨ (i = .pack ∧ execPack s = .fault q)) ?nop ?convert ?reduce ?adjust ?dither ?quantize ?pack ?illegal w
  case nop => nofun
  case convert => exact fun h => .inr (.inl ⟨rfl, h⟩)
  case reduce => exact fun h => .inl ⟨rfl, h⟩
  case adjust => exact fun h => absurd h (thenDo_not_fault (requireLumaForOneBpp_never_stuck s))
  case dither => exact fun h => absurd h (thenDo_not_fault (requireLumaForOneBpp_never_stuck s))
  case quantize => exact fun h => absurd h (thenDo_not_fault (requireLuma_never_stuck s))
  case pack => exact fun h => .inr (.inr ⟨rfl, h⟩)
  case illegal => exact fun _ => nofun

end Sys2Proof.Machine
end

section
/-! SUPPORT. The host's own accesses to memory: what is remembered of a write, and which reads are open (R54). -/

namespace Sys2Proof.Machine

/-- The remembered addresses after one more. -/
theorem contains_touch (a a' : Nat) (l : List Nat) :
    (touch a l).contains a' = true ↔ l.contains a' = true ∨ a' = a := by
  unfold touch
  split
  · rename_i h
    exact ⟨.inl, fun h' => h'.elim id (fun e => e ▸ h)⟩
  · simp [or_comm]

/-- The running command's destination region: PACK's where it finds levels, CONVERT's where its checks pass. -/
theorem runningDest_eq_some {s : State} {r : Nat × Nat} : runningDest s = some r ↔
    (decode s.pend = .pack ∧ (s.status.pk = .level1 ∨ s.status.pk = .level4)
        ∧ r = (s.latch.dstBase.toNat, s.latch.outLen.toNat))
      ∨ (decode s.pend = .convert ∧ ∃ L, ChecksPass s L ∧ r = (L.dstBase.toNat, L.outLen.toNat)) := by
  unfold runningDest ChecksPass
  split
  · rename_i hd
    simp [hd, eq_comm]
  · rename_i hd
    cases latchOf s.platform.planeCapacity s.snap <;> simp [hd, eq_comm]
  · rename_i hp hc
    exact ⟨nofun, fun h => h.elim (fun h => absurd h.1 hp) (fun h => absurd h.1 hc)⟩

/-- An address is one of the running command's destination region, from the region's base and length. -/
theorem inRunningDest_iff (s : State) (a : Nat) : InRunningDest s a ↔
    ∃ base len, runningDest s = some (base, len) ∧ ∃ i, i < len ∧ a = portAddress (base + i) := by
  constructor
  · rintro (⟨hd, hk, hi⟩ | ⟨hd, L, hL, hi⟩)
    · exact ⟨_, _, runningDest_eq_some.2 (.inl ⟨hd, hk, rfl⟩), hi⟩
    · exact ⟨_, _, runningDest_eq_some.2 (.inr ⟨hd, L, hL, rfl⟩), hi⟩
  · rintro ⟨base, len, hr, hi⟩
    rcases runningDest_eq_some.1 hr with ⟨hd, hk, he⟩ | ⟨hd, L, hL, he⟩ <;> cases he
    · exact .inl ⟨hd, hk, hi⟩
    · exact .inr ⟨hd, L, hL, hi⟩

/-- A region's length is a 32-bit word. -/
theorem runningDest_length_le {s : State} {base len : Nat} (h : runningDest s = some (base, len)) :
    len ≤ memorySpace := by
  rcases runningDest_eq_some.1 h with ⟨-, -, he⟩ | ⟨-, L, -, he⟩ <;> cases he
  · exact (outLen_le_memorySpace _).le
  · exact (outLen_le_memorySpace L).le

/-- A host read is open exactly in the running command's destination region (R54). -/
theorem hostReadOpen_iff (a : Word) (s : State) :
    hostReadOpen a s = true ↔ s.status.busy = true ∧ InRunningDest s a.toNat := by
  rw [inRunningDest_iff, hostReadOpen, Bool.and_eq_true]
  refine and_congr_right fun _ => ?_
  cases h : runningDest s with
  | none => simp
  | some r =>
    obtain ⟨base, len⟩ := r
    simp [inRegion_iff a.isLt (runningDest_length_le h)]

end Sys2Proof.Machine
end

section
/-! SUPPORT. The obligations about memory: the bytes that commands read and write, the regions, the host's accesses. -/

namespace Sys2Proof.Machine

/-- Settles O57: PACK stores at addresses reduced modulo `2^32`, the host writes at 32-bit addresses, and nothing else
writes memory. -/
theorem stepKeepsMemoryCanonical : Obligations.StepKeepsMemoryCanonical := fun _ _ hs h =>
  step_keeps (P := MemoryInv) (inbox := fun _ _ hs => hs.of_same rfl) (command := fun i _ _ => memoryInv_exec i)
    (access := fun _ _ => memoryInv_accessEffect) (reset := fun _ hs => hs.of_same rfl) hs h

/-- Settles O17: the checks read no memory, and REDUCE's loops read the three source bytes of each pixel. -/
theorem reduceReadsOnlySourceBytes : Obligations.ReduceReadsOnlySourceBytes := by
  intro s m h
  show execReduce (withMem m s) = mapNext (withMem m) (execReduce s)
  rw [execReduce, execReduce, ← outcome_mapState_withMem]
  cases hl : latchOf s.platform.planeCapacity s.snap with
  | error e => rw [checkAndLatch_error hl, checkAndLatch_error (s := withMem m s) hl]; rfl
  | ok L =>
    rw [checkAndLatch_ok hl, checkAndLatch_ok (s := withMem m s) hl]
    have same : SameSource m (writeLatch L s) := fun x y k hx hy hk =>
      h L hl x y k hx (ph_of_checksPass hl ▸ hy) hk
    have swap : writeLatch L (withMem m s) = withMem m (writeLatch L s) := rfl
    rw [andThen_going, andThen_going, swap, reduceBody_withMem same]

/-- Settles O43: only the engine's turn can stop, and each command that can is followed through its stages. -/
theorem stepStopsOnlyOnWindowOverlap : Obligations.StepStopsOnlyOnWindowOverlap := by
  refine ⟨fun s q h => ?_, fun s q h => ?_, fun _ _ => execReduce_stops, fun _ _ => execConvert_stops, ?_⟩
  · obtain ⟨-, l, hl⟩ := step_stopped h (fun _ => by simp)
    exact exec_not_refused _ q _ hl
  · obtain ⟨busy, l, hl⟩ := step_stopped h (fun _ => by simp)
    refine ⟨busy, by cases q; rfl, ?_⟩
    rcases exec_decode_fault s.pend hl with ⟨hd, hf⟩ | ⟨hd, hf⟩ | ⟨hd, hf⟩
    · exact .inl ⟨hd, execReduce_fault (s := withInbox l s) hf⟩
    · exact .inr (.inl ⟨hd, execConvert_fault (s := withInbox l s) hf⟩)
    · exact .inr (.inr ⟨hd, execPack_fault (s := withInbox l s) hf⟩)
  · intro s i hi hk ho
    rw [exec_of_core_pack hi, execPack_stops hk ho]

/-- Settles O49: such an access reaches no register. -/
theorem refusedAccessesChangeNothing : Obligations.RefusedAccessesChangeNothing := by
  intro s addr width w rest hbad
  have unreached : regAt (withInbox rest s).platform addr width = none := regAt_none _ hbad
  refine ⟨fun h => ?_, fun h => ?_⟩
  · rw [step_event h, eventTurn, regWriteAccess, unreached]
    rfl
  · rw [step_event h, eventTurn, regReadAccess, unreached]
    rfl

/-- Settles O50: the write of one byte, and the read by whether it is open. -/
theorem hostMemoryAccesses : Obligations.HostMemoryAccesses := by
  intro s a rest hwf
  refine ⟨fun v h => ?_, fun h hclosed => ?_, fun h hbusy hin => ?_⟩
  · refine ⟨_, _, step_event h, fun a' => Memory.read_write hwf a.toNat a' v, fun a' => ?_⟩
    show (if s.status.busy = true then touch a.toNat s.touched else s.touched).contains a' = true ↔ _
    by_cases hb : s.status.busy = true
    · simp only [hb, ↓reduceIte, contains_touch, true_and]
    · simp only [hb, Bool.false_eq_true, ↓reduceIte, false_and, or_false]
  · have closed : ¬ hostReadOpen a (withInbox rest s) = true := fun ho => by
      obtain ⟨hb, hin⟩ := (hostReadOpen_iff a _).1 ho
      rcases hclosed with hidle | hout
      · exact absurd (hidle.symm.trans hb) nofun
      · exact hout hin
    rw [step_event h, eventTurn, hostMemRead, if_neg closed]
    rfl
  · have isOpen : hostReadOpen a (withInbox rest s) = true := (hostReadOpen_iff a _).2 ⟨hbusy, hin⟩
    refine ⟨Config.freeByte s.freeCount, s.freeCount + 1, ?_⟩
    rw [step_event h, eventTurn, hostMemRead, if_pos isOpen]
    rfl

end Sys2Proof.Machine
end

section
/-! SUPPORT. Command words: what decodes to what, and that the encoder and the decoder undo each other. -/

namespace Sys2Proof.Machine

/-- A word put together from four bytes, as a number (R38). -/
theorem wordOfBytes_toNat (b0 b1 b2 b3 : Byte) : (wordOfBytes b0 b1 b2 b3).toNat =
    b0.toNat + 256 * b1.toNat + 65536 * b2.toNat + 16777216 * b3.toNat := by
  have h0 := b0.isLt; have h1 := b1.isLt; have h2 := b2.isLt
  unfold wordOfBytes
  rw [BitVec.toNat_append, ← Nat.shiftLeft_add_eq_or_of_lt h0, BitVec.toNat_append,
    ← Nat.shiftLeft_add_eq_or_of_lt h1, BitVec.toNat_append, ← Nat.shiftLeft_add_eq_or_of_lt h2]
  simp only [Nat.shiftLeft_eq]
  omega

/-- Four bytes decode to what their word decodes to. -/
theorem decodeBytes_four (b0 b1 b2 b3 : Byte) (rest : List Byte) :
    decodeBytes (b0 :: b1 :: b2 :: b3 :: rest) = .ok (decode (wordOfBytes b0 b1 b2 b3), rest) := rfl

/-- The bytes of a word decode to what the word decodes to (R38). -/
theorem decodeBytes_bytesOfWord (w : Word) (rest : List Byte) :
    decodeBytes (bytesOfWord w ++ rest) = .ok (decode w, rest) :=
  (decodeBytes_four _ _ _ _ rest).trans (by rw [wordOfBytes_self])

/-- A word that meets the condition of the ILLEGAL row decodes to ILLEGAL with that word (R75). -/
theorem decode_of_illegalWord {w : Word} (h : illegalWord w = true) : decode w = .illegal w := by
  unfold decode
  split
  · rfl
  · have low : 7 ≤ (w.extractLsb' 0 4).toNat := by simp_all [illegalWord]
    split
    case h_8 => rfl
    all_goals omega

/-- The illegal words are those from 7 on. -/
theorem illegalWord_iff_seven_le (w : Word) : illegalWord w = true ↔ 7 ≤ w.toNat := by
  rw [illegalWord_iff]
  omega

/-- Decoding undoes encoding, up to the command of a variant (R67, R68). -/
theorem decode_encode {i : Instr} (h : i.wellFormed = true) : decode (encode i) = i.core := by
  cases i with
  | illegal w => exact decode_of_illegalWord h
  | _ => rfl

/-- Every word is the encoding of a well-formed command or illegal word (R67, R75). -/
theorem exists_encode_eq (w : Word) : ∃ i : Instr, i.wellFormed = true ∧ i.core = i ∧ encode i = w := by
  by_cases h : illegalWord w = true
  · exact ⟨.illegal w, h, rfl, rfl⟩
  · have small : w.toNat < 7 := by rwa [illegalWord_iff_seven_le, not_le] at h
    have named (i : Instr) (hw : encode i = BitVec.ofNat 32 w.toNat) : encode i = w := by
      rw [hw, BitVec.ofNat_toNat, BitVec.setWidth_eq]
    generalize w.toNat = n at small named
    interval_cases n
    · exact ⟨.nop, rfl, rfl, named .nop rfl⟩
    · exact ⟨.convert, rfl, rfl, named .convert rfl⟩
    · exact ⟨.reduce, rfl, rfl, named .reduce rfl⟩
    · exact ⟨.adjust, rfl, rfl, named .adjust rfl⟩
    · exact ⟨.dither, rfl, rfl, named .dither rfl⟩
    · exact ⟨.quantize, rfl, rfl, named .quantize rfl⟩
    · exact ⟨.pack, rfl, rfl, named .pack rfl⟩

/-- A row is its own command, or one of the variants of DITHER, QUANTIZE and PACK (R68). -/
theorem core_cases (i : Instr) :
    i.core = i ∨ (i.core = .dither ∧ (i = .ditherNone ∨ i = .ditherFloyd ∨ i = .ditherOrdered))
      ∨ (i.core = .quantize ∧ (i = .quantize1 ∨ i = .quantize4))
      ∨ (i.core = .pack ∧ (i = .pack4h ∨ i = .pack4v ∨ i = .pack1h ∨ i = .pack1v)) := by
  cases i <;> simp [Instr.core]

/-- A row's meaning is its command's meaning (R68). -/
theorem exec_core (i : Instr) : exec i = exec i.core := by
  obtain ⟨none, floyd, ordered⟩ := execDither_variants
  obtain ⟨one, four⟩ := execQuantize_variants
  cases i with
  | ditherNone => exact none
  | ditherFloyd => exact floyd
  | ditherOrdered => exact ordered
  | quantize1 => exact one
  | quantize4 => exact four
  | pack4h => exact exec_of_core_pack rfl
  | pack4v => exact exec_of_core_pack rfl
  | pack1h => exact exec_of_core_pack rfl
  | pack1v => exact exec_of_core_pack rfl
  | _ => rfl

end Sys2Proof.Machine
end

section
/-! SUPPORT. The configuration word: each field as a number, the decoder as equations between numbers, and its
inverse. -/

namespace Sys2Proof

open Machine

/-! ## The numbers a field can hold (R59) -/

theorem OutBpp.exists_value_eq (n : Nat) : (∃ b : OutBpp, n = b.value) ↔ n = 1 ∨ n = 4 :=
  ⟨fun ⟨b, h⟩ => by cases b; exacts [.inl h, .inr h], fun h => h.elim (⟨.one, ·⟩) (⟨.four, ·⟩)⟩

theorem SrcBpp.exists_value_eq (n : Nat) : (∃ b : SrcBpp, n = b.value) ↔ n = 24 ∨ n = 32 :=
  ⟨fun ⟨b, h⟩ => by cases b; exacts [.inl h, .inr h], fun h => h.elim (⟨.b24, ·⟩) (⟨.b32, ·⟩)⟩

theorem DitherMethod.value_le (d : DitherMethod) : d.value ≤ 2 := by cases d <;> decide

theorem DitherMethod.exists_value_eq (n : Nat) : (∃ d : DitherMethod, n = d.value) ↔ n ≤ 2 := by
  constructor
  · rintro ⟨d, rfl⟩
    exact d.value_le
  · intro h
    interval_cases n
    exacts [⟨.none, rfl⟩, ⟨.floyd, rfl⟩, ⟨.ordered, rfl⟩]

theorem OutBpp.value_le (b : OutBpp) : b.value ≤ 4 := by cases b <;> decide
theorem SrcBpp.value_le (b : SrcBpp) : b.value ≤ 32 := by cases b <;> decide
theorem Scan.value_le (sc : Scan) : sc.value ≤ 1 := by cases sc <;> decide
theorem PixelOrder.value_le (o : PixelOrder) : o.value ≤ 1 := by cases o <;> decide

/-! ## The fields of a word (R59, R60) -/

theorem outBppField_eq_some {c : Word} {b : OutBpp} : outBppField c = some b ↔ c.toNat % 16 = b.value := by
  obtain ⟨depth, -⟩ := config_fields c
  rw [outBppField, depth]
  split
  case h_1 h => rw [h]; cases b <;> simp [OutBpp.value]
  case h_2 h => rw [h]; cases b <;> simp [OutBpp.value]
  case h_3 h1 h4 => cases b; exacts [iff_of_false nofun h1, iff_of_false nofun h4]

theorem ditherField_eq_some {c : Word} {d : DitherMethod} :
    ditherField c = some d ↔ c.toNat / 64 % 4 = d.value := by
  obtain ⟨-, method, -⟩ := config_fields c
  rw [ditherField, method]
  split
  case h_1 h => rw [h]; cases d <;> simp [DitherMethod.value]
  case h_2 h => rw [h]; cases d <;> simp [DitherMethod.value]
  case h_3 h => rw [h]; cases d <;> simp [DitherMethod.value]
  case h_4 h0 h1 h2 =>
    cases d
    exacts [iff_of_false nofun h0, iff_of_false nofun h1, iff_of_false nofun h2]

theorem srcBppField_eq_some {c : Word} {b : SrcBpp} :
    srcBppField c = some b ↔ c.toNat / 65536 % 256 = b.value := by
  obtain ⟨-, -, depth, -⟩ := config_fields c
  rw [srcBppField, depth]
  split
  case h_1 h => rw [h]; cases b <;> simp [SrcBpp.value]
  case h_2 h => rw [h]; cases b <;> simp [SrcBpp.value]
  case h_3 h24 h32 => cases b; exacts [iff_of_false nofun h24, iff_of_false nofun h32]

theorem scanField_eq_iff {c : Word} {sc : Scan} : scanField c = sc ↔ c.toNat / 16 % 2 = sc.value := by
  obtain ⟨bit, -⟩ := config_bits c
  rw [scanField, bit]
  rcases Nat.mod_two_eq_zero_or_one (c.toNat / 16) with h | h <;> rw [h]
  · cases sc <;> simp [Scan.value]
  · cases sc <;> simp [Scan.value]

theorem orderField_eq_iff {c : Word} {o : PixelOrder} : orderField c = o ↔ c.toNat / 32 % 2 = o.value := by
  obtain ⟨-, bit, -⟩ := config_bits c
  rw [orderField, bit]
  rcases Nat.mod_two_eq_zero_or_one (c.toNat / 32) with h | h <;> rw [h]
  · cases o <;> simp [PixelOrder.value]
  · cases o <;> simp [PixelOrder.value]

theorem invertField_eq_iff {c : Word} {b : Bool} : invertField c = b ↔ c.toNat / 256 % 2 = b.toNat := by
  obtain ⟨-, -, bit⟩ := config_bits c
  rw [invertField, bit]
  rcases Nat.mod_two_eq_zero_or_one (c.toNat / 256) with h | h <;> rw [h]
  · cases b <;> simp
  · cases b <;> simp

theorem configReservedZero_iff (c : Word) :
    configReservedZero c = true ↔ c.toNat / 512 % 128 = 0 ∧ c.toNat / 16777216 = 0 := by
  obtain ⟨-, -, -, low, high⟩ := config_fields c
  rw [configReservedZero, Bool.and_eq_true, beq_iff_eq, beq_iff_eq, ← BitVec.toNat_inj, ← BitVec.toNat_inj, low, high]
  rfl

/-! ## The decoder and the encoder -/

/-- A word decodes to fields exactly when each field decodes and the reserved bits are 0. -/
theorem decodeConfig_eq_some_fields {c : Word} {f : ConfigFields} : decodeConfig c = some f ↔
    outBppField c = some f.outBpp ∧ scanField c = f.scan ∧ orderField c = f.order ∧ ditherField c = some f.dither
      ∧ invertField c = f.invert ∧ srcBppField c = some f.srcBpp ∧ configReservedZero c = true := by
  unfold decodeConfig
  split
  case h_1 ob d sb hob hd hsb =>
    rw [hob, hd, hsb]
    cases f
    by_cases h : configReservedZero c = true <;> simp [h]
  case h_2 hnone =>
    exact ⟨nofun, fun ⟨hob, _, _, hd, _, hsb, _⟩ => absurd hsb (hnone _ _ _ hob hd)⟩

/-- The decoder in the arithmetic of the word's bits (R59, R60). -/
theorem decodeConfig_eq_some_iff {c : Word} {f : ConfigFields} : decodeConfig c = some f ↔
    c.toNat % 16 = f.outBpp.value ∧ c.toNat / 16 % 2 = f.scan.value ∧ c.toNat / 32 % 2 = f.order.value
      ∧ c.toNat / 64 % 4 = f.dither.value ∧ c.toNat / 256 % 2 = f.invert.toNat
      ∧ c.toNat / 65536 % 256 = f.srcBpp.value ∧ c.toNat / 512 % 128 = 0 ∧ c.toNat / 16777216 = 0 := by
  rw [decodeConfig_eq_some_fields, outBppField_eq_some, scanField_eq_iff, orderField_eq_iff, ditherField_eq_some,
    invertField_eq_iff, srcBppField_eq_some, configReservedZero_iff]

/-- The number of the configuration word of the fields (R71). -/
theorem encodeConfig_toNat (f : ConfigFields) : (encodeConfig f).toNat =
    f.outBpp.value + f.scan.value * 2 ^ 4 + f.order.value * 2 ^ 5 + f.dither.value * 2 ^ 6
      + f.invert.toNat * 2 ^ 8 + f.srcBpp.value * 2 ^ 16 := by
  have hob := f.outBpp.value_le; have hsc := f.scan.value_le; have ho := f.order.value_le
  have hd := f.dither.value_le; have hi := f.invert.toNat_le; have hsb := f.srcBpp.value_le
  rw [encodeConfig, BitVec.toNat_ofNat]
  exact Nat.mod_eq_of_lt (by omega)

/-- The fields of a word and the word of the fields are inverse to each other (R59, R71). -/
theorem decodeConfig_eq_some_iff_eq_encodeConfig {c : Word} {f : ConfigFields} :
    decodeConfig c = some f ↔ c = encodeConfig f := by
  have hob := f.outBpp.value_le; have hsc := f.scan.value_le; have ho := f.order.value_le
  have hd := f.dither.value_le; have hi := f.invert.toNat_le; have hsb := f.srcBpp.value_le
  rw [decodeConfig_eq_some_iff, ← BitVec.toNat_inj, encodeConfig_toNat]
  omega

theorem decodeConfig_encodeConfig (f : ConfigFields) : decodeConfig (encodeConfig f) = some f :=
  decodeConfig_eq_some_iff_eq_encodeConfig.2 rfl

/-- A word decodes to some fields exactly when it is legal (R60). -/
theorem decodeConfig_isSome_iff (c : Word) : (decodeConfig c).isSome = true ↔ ConfigLegal c := by
  rw [Option.isSome_iff_exists]
  constructor
  · rintro ⟨f, hf⟩
    obtain ⟨depth, -, -, method, -, source, low, high⟩ := decodeConfig_eq_some_iff.1 hf
    exact ⟨(OutBpp.exists_value_eq _).1 ⟨_, depth⟩, (DitherMethod.exists_value_eq _).1 ⟨_, method⟩,
      (SrcBpp.exists_value_eq _).1 ⟨_, source⟩, low, high⟩
  · rintro ⟨depth, method, source, low, high⟩
    obtain ⟨ob, hob⟩ := (OutBpp.exists_value_eq _).2 depth
    obtain ⟨d, hd⟩ := (DitherMethod.exists_value_eq _).2 method
    obtain ⟨sb, hsb⟩ := (SrcBpp.exists_value_eq _).2 source
    exact ⟨⟨ob, scanField c, orderField c, d, invertField c, sb⟩,
      decodeConfig_eq_some_iff.2 ⟨hob, scanField_eq_iff.1 rfl, orderField_eq_iff.1 rfl, hd, invertField_eq_iff.1 rfl,
        hsb, low, high⟩⟩

/-- An illegal word decodes to no fields. -/
theorem decodeConfig_eq_none {c : Word} (h : ¬ ConfigLegal c) : decodeConfig c = none := by
  rw [← Option.not_isSome_iff_eq_none, decodeConfig_isSome_iff]
  exact h

end Sys2Proof
end

section
/-! SUPPORT. CONVERT at 4 bpp and the tone controls: its stages read neither `L.DITHER` nor `L.B` nor `L.C` (R61). -/

namespace Sys2Proof.Machine

/-! ## Where the checks fail (R81, R116) -/

theorem latchOf_badConfig {cap : Nat} {r : ConvRegs}
    (h : decodeConfig r.config = none ∨ 100 < r.brightness.toNat ∨ 100 < r.contrast.toNat) :
    latchOf cap r = .error .badConfig := by
  unfold latchOf
  split
  · rfl
  · rename_i f hf
    exact if_pos (h.resolve_left (by simp [hf]))

theorem execReduce_failed {s : State} {e : CmdError} (h : latchOf s.platform.planeCapacity s.snap = .error e) :
    execReduce s = .next (raiseError e s) := by
  rw [execReduce, checkAndLatch_error h, andThen_raised, outcome_raised]

theorem execConvert_failed {s : State} {e : CmdError} (h : latchOf s.platform.planeCapacity s.snap = .error e) :
    execConvert s = .next (raiseError e s) := by
  simp only [execConvert, startConversion, checkAndLatch_error h, andThen_raised, thenDo_raised, outcome_raised]

/-- An illegal configuration or percentage ends CONVERT with `BAD_CONFIG` and nothing else changed (R60, R63). -/
theorem execConvert_badConfig {s : State}
    (h : decodeConfig s.snap.config = none ∨ 100 < s.snap.brightness.toNat ∨ 100 < s.snap.contrast.toNat) :
    execConvert s = .next { s with status := s.status.failed 2#4, touched := [] } :=
  execConvert_failed (latchOf_badConfig h)

/-! ## The latch with other tone controls -/

/-- The latch with other values of the dithering method, the brightness and the contrast. -/
def Latch.withTone (d : DitherMethod) (b c : Nat) (L : Latch) : Latch := { L with dither := d, b := b, c := c }

/-- The operands with another configuration word, brightness and contrast. -/
def ConvRegs.withTone (v b c : Word) (r : ConvRegs) : ConvRegs := { r with config := v, brightness := b, contrast := c }

/-- The check of the dimensions and the latch, given a legal configuration and legal percentages (R81, R82). -/
theorem latchOf_legal {cap : Nat} {r : ConvRegs} {f : ConfigFields} (hf : decodeConfig r.config = some f)
    (hb : r.brightness.toNat ≤ 100) (hc : r.contrast.toNat ≤ 100) : latchOf cap r =
      if signedWord r.width < 1 ∨ signedWord r.height < 1 then .error .badDim
      else if cap < planeWidthOf f.outBpp (signedWord r.width).toNat * (signedWord r.height).toNat then .error .badDim
      else .ok (makeLatch f r (signedWord r.width).toNat (signedWord r.height).toNat) := by
  unfold latchOf
  rw [hf]
  exact if_neg (by omega)

theorem makeLatch_withTone (f : ConfigFields) (r : ConvRegs) (d : DitherMethod) (v b c : Word) (w h : Nat) :
    makeLatch { f with dither := d } (r.withTone v b c) w h = (makeLatch f r w h).withTone d b.toNat c.toNat := rfl

/-- Other legal tone controls pass and fail the same checks, and change the latch in their own fields only (R82). -/
theorem latchOf_withTone {cap : Nat} {r : ConvRegs} {f : ConfigFields} {d : DitherMethod} {v b c : Word}
    (hf : decodeConfig r.config = some f) (hrb : r.brightness.toNat ≤ 100) (hrc : r.contrast.toNat ≤ 100)
    (hv : decodeConfig v = some { f with dither := d }) (hb : b.toNat ≤ 100) (hc : c.toNat ≤ 100) :
    latchOf cap (r.withTone v b c) = (latchOf cap r).map (Latch.withTone d b.toNat c.toNat) := by
  rw [latchOf_legal hf hrb hrc, latchOf_legal (r := r.withTone v b c) hv hb hc, makeLatch_withTone,
    apply_ite (Except.map _), apply_ite (Except.map _)]
  rfl

/-! ## What the stages of a 4-bpp conversion do not read -/

/-- The state with another snapshot and other tone controls in the latch. -/
def withTone (r : ConvRegs) (d : DitherMethod) (b c : Nat) (s : State) : State :=
  { s with snap := r, latch := s.latch.withTone d b c }

/-- A stage neither reads nor writes what `g` changes in the state. -/
def BlindTo (g : State → State) (f : State → Progress) : Prop := ∀ s, f (g s) = (f s).mapState g

theorem BlindTo.andThen {g : State → State} {f k : State → Progress} (hf : BlindTo g f) (hk : BlindTo g k) :
    BlindTo g (fun s => (f s).andThen k) := by
  intro s
  dsimp only
  rw [hf s]
  cases f s with
  | going t => exact hk t
  | raised e t => rfl
  | stuck q => rfl

theorem BlindTo.thenDo {g : State → State} {f : State → Progress} {k : State → State} (hf : BlindTo g f)
    (hk : ∀ s, k (g s) = g (k s)) : BlindTo g (fun s => (f s).thenDo k) :=
  hf.andThen fun s => congrArg Progress.going (hk s)

section Tone

variable (r : ConvRegs) (d : DitherMethod) (b c : Nat)

theorem requireDestClear_withTone : BlindTo (withTone r d b c) requireDestClear := by
  intro s
  simp only [requireDestClear, mapState_ite]
  rfl

theorem requireSourceClear_withTone : BlindTo (withTone r d b c) requireSourceClear := by
  intro s
  simp only [requireSourceClear, mapState_ite]
  rfl

theorem fillPlane_withTone : BlindTo (withTone r d b c) fillPlane := by
  intro s
  simp only [fillPlane, mapState_ite]
  rfl

theorem reduceBody_withTone : BlindTo (withTone r d b c) reduceBody :=
  (requireSourceClear_withTone r d b c).andThen (fillPlane_withTone r d b c)

theorem quantizeBody_withTone (s : State) :
    quantizeBody (withTone r d b c s) = withTone r d b c (quantizeBody s) := by
  have depth : (withTone r d b c s).latch.outBpp = s.latch.outBpp := rfl
  simp only [quantizeBody, depth]
  cases s.latch.outBpp <;> rfl

/-- No layout reads the tone controls (R107 to R110). -/
theorem packedBytes_withTone (ob : OutBpp) (sc : Scan) (L : Latch) (p : Memory) :
    packedBytes (layoutOf ob sc) (L.withTone d b c) p = packedBytes (layoutOf ob sc) L p := by
  cases ob <;> cases sc <;> rfl

theorem writeDest_withTone (out : List Byte) : BlindTo (withTone r d b c) (writeDest out) := by
  intro s
  simp only [writeDest, mapState_ite]
  rfl

theorem packBody_withTone : BlindTo (withTone r d b c) packBody := by
  intro s
  have bytes := packedBytes_withTone d b c s.latch.outBpp s.latch.scan s.latch s.plane
  have written := (requireDestClear_withTone r d b c).andThen
    (writeDest_withTone r d b c (packedBytes (layoutOf s.latch.outBpp s.latch.scan) s.latch s.plane)) s
  rw [packBody_eq, packWith, packBody_eq, packWith]
  exact (congrArg (writePacked · _) bytes).trans written

end Tone

/-! ## CONVERT at 4 bpp (R61, R112) -/

/-- What CONVERT does at 4 bpp after the latch: no adjustment and no ditherer. -/
def fourBppStages (s : State) : Progress :=
  (((requireDestClear s).andThen reduceBody).thenDo quantizeBody).andThen packBody

theorem fourBppStages_withTone (r : ConvRegs) (d : DitherMethod) (b c : Nat) :
    BlindTo (withTone r d b c) fourBppStages :=
  (((requireDestClear_withTone r d b c).andThen (reduceBody_withTone r d b c)).thenDo
    (quantizeBody_withTone r d b c)).andThen (packBody_withTone r d b c)

theorem oneBppStages_of_four {s : State} (h : s.latch.outBpp = .four) : oneBppStages s = s := by
  rw [oneBppStages, h]

/-- The 1-bpp stages do nothing after stages that go on with a 4-bpp latch. -/
theorem thenDo_oneBppStages_of_four {p : Progress} (h : p.Holds fun t => t.latch.outBpp = .four) :
    p.thenDo oneBppStages = p := by
  cases p with
  | going t => rw [thenDo_going, oneBppStages_of_four h]
  | raised e t => rfl
  | stuck q => rfl

/-- The duties on the regions and REDUCE's loops keep the latch's depth. -/
theorem reduced_outBpp {s : State} {ob : OutBpp} (h : s.latch.outBpp = ob) :
    ((requireDestClear s).andThen reduceBody).Holds fun t => t.latch.outBpp = ob := by
  rcases requireDestClear_cases s with ⟨hd, -⟩ | ⟨hd, -⟩ <;> rw [hd]
  · trivial
  · rw [andThen_going]
    rcases reduceBody_cases s with ⟨hr, -⟩ | ⟨hr, -, -⟩ | ⟨hr, -, -⟩ <;> rw [hr]
    · trivial
    · exact h
    · exact h

/-- The depth of a latch that passes the checks is the configuration's. -/
theorem outBpp_of_latchOf {cap : Nat} {r : ConvRegs} {L : Latch} {f : ConfigFields} (hL : latchOf cap r = .ok L)
    (hf : decodeConfig r.config = some f) : L.outBpp = f.outBpp := by
  obtain ⟨f', hf', -, -, -, -, -, rfl⟩ := latchOf_ok hL
  obtain rfl : f = f' := Option.some.inj (hf.symm.trans hf')
  rfl

/-- At 4 bpp CONVERT runs the 4-bpp stages on the latched state (R112). -/
theorem execConvert_four {s : State} {L : Latch} (hL : latchOf s.platform.planeCapacity s.snap = .ok L)
    (h4 : L.outBpp = .four) : execConvert s = (fourBppStages (writeLatch L s)).outcome := by
  rw [execConvert, startConversion, checkAndLatch_ok hL, andThen_going,
    thenDo_oneBppStages_of_four (reduced_outBpp (s := writeLatch L s) h4), fourBppStages]

/-- Two ends that differ in the snapshot and the tone controls only agree on everything `SameConversion` compares. -/
theorem sameConversion_withTone (r : ConvRegs) (d : DitherMethod) (b c : Nat) (p : Progress) :
    SameConversion (fun t u => t = u) (p.mapState (withTone r d b c)).outcome p.outcome := by
  cases p with
  | going t => exact ⟨rfl, rfl, rfl, rfl, rfl⟩
  | raised e t => exact ⟨rfl, rfl, rfl, rfl, rfl⟩
  | stuck q => rfl

/-- Other legal tone controls do not change what CONVERT does at 4 bpp (R61). -/
theorem execConvert_withTone {s : State} {f : ConfigFields} {d : DitherMethod} {v b c : Word}
    (hf : decodeConfig s.snap.config = some f) (h4 : f.outBpp = .four) (hsb : s.snap.brightness.toNat ≤ 100)
    (hsc : s.snap.contrast.toNat ≤ 100) (hv : decodeConfig v = some { f with dither := d }) (hb : b.toNat ≤ 100)
    (hc : c.toNat ≤ 100) :
    SameConversion (fun t u => t = u) (execConvert { s with snap := s.snap.withTone v b c }) (execConvert s) := by
  have toned := latchOf_withTone (cap := s.platform.planeCapacity) hf hsb hsc hv hb hc
  cases hL : latchOf s.platform.planeCapacity s.snap with
  | error e =>
    rw [hL] at toned
    rw [execConvert_failed hL, execConvert_failed (s := { s with snap := s.snap.withTone v b c }) toned]
    exact ⟨rfl, rfl, rfl, rfl, rfl⟩
  | ok L =>
    rw [hL] at toned
    have depth : L.outBpp = .four := (outBpp_of_latchOf hL hf).trans h4
    rw [execConvert_four hL depth, execConvert_four (s := { s with snap := s.snap.withTone v b c }) toned depth]
    have blind := fourBppStages_withTone (s.snap.withTone v b c) d b.toNat c.toNat (writeLatch L s)
    exact congrArg Progress.outcome blind ▸ sameConversion_withTone _ _ _ _ (fourBppStages (writeLatch L s))

end Sys2Proof.Machine
end

section
/-! SUPPORT. The obligations about the encoding: command words, the configuration word and what its fields decide. -/

namespace Sys2Proof.Machine

/-- Settles O2: the bytes give the word back, and decoding undoes encoding up to the command of a variant. -/
theorem decodeEncodeAgree : Obligations.DecodeEncodeAgree := fun i rest h =>
  ⟨(decodeBytes_bytesOfWord (encode i) rest).trans (by rw [decode_encode h]), core_cases i⟩

/-- Settles O4: both sides say the same of the numbers of the fields. -/
theorem configWordRoundTrip : Obligations.ConfigWordRoundTrip := fun _ _ => decodeConfig_eq_some_iff_eq_encodeConfig

/-- Settles O3: every word is the encoding of a command or an illegal word, which it decodes to. -/
theorem encodeDecodeAgree : Obligations.EncodeDecodeAgree := by
  intro w
  obtain ⟨i, wellFormed, core, rfl⟩ := exists_encode_eq w
  rw [decode_encode wellFormed, core]
  exact ⟨wellFormed, core, rfl⟩

/-- Settles O5: the numbers a field can hold, and the first check of `CheckAndLatch()`. -/
theorem illegalConfigEndsBadConfig : Obligations.IllegalConfigEndsBadConfig := by
  refine ⟨decodeConfig_isSome_iff, fun s i hi illegal => ?_⟩
  have unread := decodeConfig_eq_none illegal
  rcases hi with rfl | rfl
  · exact execReduce_failed (latchOf_badConfig (.inl unread))
  · exact execConvert_badConfig (.inl unread)

/-- Settles O39: the 4-bpp stages do not read the tone controls, and the checks come before them. -/
theorem fourBppIgnoresToneControls : Obligations.FourBppIgnoresToneControls := by
  intro s f d b c hf h4 hsb hsc
  refine ⟨execConvert_withTone hf h4 hsb hsc (decodeConfig_encodeConfig _), fun percent => ?_, fun v method => ?_⟩
  · exact execConvert_badConfig (s := { s with snap := { s.snap with brightness := b, contrast := c } }) (.inr percent)
  · refine execConvert_badConfig (s := { s with snap := { s.snap with config := v } }) (.inl (decodeConfig_eq_none ?_))
    rintro ⟨-, legal, -⟩
    exact absurd (method ▸ legal) (by decide)

/-- Settles O1: the words by evaluation, the words from 7 on by the ILLEGAL row, and four bytes by their number. -/
theorem commandWordsDecode : Obligations.CommandWordsDecode := by
  refine ⟨rfl, rfl, rfl, rfl, rfl, rfl, rfl,
    fun w h => decode_of_illegalWord ((illegalWord_iff_seven_le w).2 h), fun b0 b1 b2 b3 w rest h => ?_⟩
  have word : wordOfBytes b0 b1 b2 b3 = w := BitVec.eq_of_toNat_eq ((wordOfBytes_toNat b0 b1 b2 b3).trans h.symm)
  rw [decodeBytes_four, word]

/-- Settles O23, by the rule that a row means what its command means. -/
theorem variantsRunTheirWord : Obligations.VariantsRunTheirWord := fun i s => congrFun (exec_core i) s

end Sys2Proof.Machine
end

section
/-! SUPPORT. The stages of the commands and how they end: every row but NOP by `finish` or by an error, and REDUCE and
CONVERT never by `SEQUENCE` (R74, R76, R114, R115). -/

namespace Sys2Proof.Machine

/-! ## The stages of the commands -/

/-- The stages of REDUCE (R84). -/
def reduceStages (s : State) : Progress := (checkAndLatch s).andThen reduceBody

/-- The stages of CONVERT (R112). -/
def convertStages (s : State) : Progress :=
  ((((startConversion s).andThen reduceBody).thenDo oneBppStages).thenDo quantizeBody).andThen packBody

theorem execReduce_eq (s : State) : execReduce s = (reduceStages s).outcome := rfl

theorem execConvert_eq (s : State) : execConvert s = (convertStages s).outcome := rfl

theorem reduceStages_frame (s : State) : (reduceStages s).Holds (StageFrame s) :=
  andThen_frame (checkAndLatch_frame s) reduceBody_frame

theorem convertStages_frame (s : State) : (convertStages s).Holds (StageFrame s) := by
  have started := andThen_frame (checkAndLatch_frame s) requireDestClear_frame
  have adjusted := thenDo_frame (andThen_frame started reduceBody_frame) stageFrame_oneBppStages
  exact andThen_frame (thenDo_frame adjusted stageFrame_quantizeBody) packBody_frame

/-! ## How every row but NOP ends -/

/-- What holds of the meanings of the six commands and the illegal words holds of every row's meaning but NOP's. -/
theorem exec_commands {C : (State → Host.Outcome State Fault Refusal) → Prop} (convert : C execConvert)
    (reduce : C execReduce) (adjust : C execAdjust) (dither : C execDither) (quantize : C execQuantize)
    (pack : C execPack) (illegal : ∀ w, C (execIllegal w)) {i : Instr} (hi : i ≠ .nop) : C (exec i) := by
  rw [exec_core i]
  cases i with
  | nop => exact absurd rfl hi
  | convert => exact convert
  | reduce => exact reduce
  | adjust => exact adjust
  | dither | ditherNone | ditherFloyd | ditherOrdered => exact dither
  | quantize | quantize1 | quantize4 => exact quantize
  | pack | pack4h | pack4v | pack1h | pack1v => exact pack
  | illegal w => exact illegal w

/-- Every row but NOP runs stages that stay inside their frame and ends as they end (R74). -/
theorem exec_stages {i : Instr} (hi : i ≠ .nop) :
    ∀ s, ∃ r : Progress, r.Holds (StageFrame s) ∧ exec i s = r.outcome := by
  refine exec_commands (C := fun f => ∀ s, ∃ r : Progress, r.Holds (StageFrame s) ∧ f s = r.outcome) ?convert
    ?reduce ?adjust ?dither ?quantize ?pack ?illegal hi
  case convert => exact fun s => ⟨_, convertStages_frame s, execConvert_eq s⟩
  case reduce => exact fun s => ⟨_, reduceStages_frame s, execReduce_eq s⟩
  case adjust => exact fun s => ⟨_, thenDo_frame (require_holds (.refl s)).1 stageFrame_adjustBody, rfl⟩
  case dither => exact fun s => ⟨_, thenDo_frame (require_holds (.refl s)).1 stageFrame_ditherBody, rfl⟩
  case quantize => exact fun s => ⟨_, thenDo_frame (require_holds (.refl s)).2.1 stageFrame_quantizeBody, rfl⟩
  case pack => exact fun s => ⟨_, andThen_frame (require_holds (.refl s)).2.2 packBody_frame, rfl⟩
  case illegal => exact fun _ s => ⟨.raised .illegalCmd s, .refl s, rfl⟩

/-- No error has the code 0 (R118). -/
theorem CmdError.one_le_code (e : CmdError) : 1 ≤ e.code.toNat := by cases e <;> decide

/-! ## The stage requirements (R76) -/

theorem execAdjust_unmet {s : State} (h : ¬ (s.status.pk = .luma8 ∧ s.latch.outBpp = .one)) :
    execAdjust s = .next (raiseError .sequence s) := by
  rw [execAdjust, requireLumaForOneBpp_unmet h, thenDo_raised, outcome_raised]

theorem execDither_unmet {s : State} (h : ¬ (s.status.pk = .luma8 ∧ s.latch.outBpp = .one)) :
    execDither s = .next (raiseError .sequence s) := by
  rw [execDither, requireLumaForOneBpp_unmet h, thenDo_raised, outcome_raised]

theorem execQuantize_unmet {s : State} (h : s.status.pk ≠ .luma8) :
    execQuantize s = .next (raiseError .sequence s) := by
  rw [execQuantize, requireLuma_unmet h, thenDo_raised, outcome_raised]

theorem execPack_unmet {s : State} (h : ¬ (s.status.pk = .level1 ∨ s.status.pk = .level4)) :
    execPack s = .next (raiseError .sequence s) := by
  rw [execPack, requireLevels_unmet h, andThen_raised, outcome_raised]

/-- `SEQUENCE` is a pre-check error: it changes `ERR`, `ERRCODE` and `BUSY` only (R116). -/
theorem raiseError_sequence (s : State) :
    raiseError .sequence s = { s with status := s.status.failed 4#4, touched := [] } := rfl

/-! ## The errors that a conversion raises -/

/-- The error that has been raised, if one has, is one of `C`. -/
def Progress.RaisesOnly (C : CmdError → Prop) : Progress → Prop
  | .going _ => True
  | .raised e _ => C e
  | .stuck _ => True

theorem andThen_raisesOnly {C : CmdError → Prop} {r : Progress} {f : State → Progress} (hr : r.RaisesOnly C)
    (hf : ∀ s, (f s).RaisesOnly C) : (r.andThen f).RaisesOnly C := by
  cases r with
  | going s => exact hf s
  | raised e s => exact hr
  | stuck _ => trivial

theorem thenDo_raisesOnly {C : CmdError → Prop} {r : Progress} {f : State → State} (hr : r.RaisesOnly C) :
    (r.thenDo f).RaisesOnly C := andThen_raisesOnly hr (fun _ => trivial)

theorem checkAndLatch_raises (s : State) : (checkAndLatch s).RaisesOnly (· ≠ .sequence) := by
  cases h : latchOf s.platform.planeCapacity s.snap with
  | ok L => rw [checkAndLatch_ok h]; trivial
  | error e =>
    rw [checkAndLatch_error h]
    rcases latchOf_error h with rfl | rfl
    · exact CmdError.noConfusion
    · exact CmdError.noConfusion

theorem requireDestClear_raises (s : State) : (requireDestClear s).RaisesOnly (· ≠ .sequence) := by
  rcases requireDestClear_cases s with ⟨h, -⟩ | ⟨h, -⟩ <;> rw [h] <;> trivial

theorem reduceBody_raises (s : State) : (reduceBody s).RaisesOnly (· ≠ .sequence) := by
  rcases reduceBody_cases s with ⟨h, -⟩ | ⟨h, -, -⟩ | ⟨h, -, -⟩ <;> rw [h]
  · trivial
  · exact CmdError.noConfusion
  · trivial

theorem packBody_raises (s : State) : (packBody s).RaisesOnly (· ≠ .sequence) := by
  rw [packBody_eq, packWith]
  rcases writePacked_cases (packedBytes (layoutOf s.latch.outBpp s.latch.scan) s.latch s.plane) s with
    ⟨h, -⟩ | ⟨h, -, -⟩ | ⟨h, -, -⟩ <;> rw [h]
  · trivial
  · exact CmdError.noConfusion
  · trivial

theorem reduceStages_raises (s : State) : (reduceStages s).RaisesOnly (· ≠ .sequence) :=
  andThen_raisesOnly (checkAndLatch_raises s) reduceBody_raises

theorem convertStages_raises (s : State) : (convertStages s).RaisesOnly (· ≠ .sequence) := by
  have started := andThen_raisesOnly (checkAndLatch_raises s) requireDestClear_raises
  have reduced := andThen_raisesOnly started reduceBody_raises
  exact andThen_raisesOnly (thenDo_raisesOnly (thenDo_raisesOnly reduced)) packBody_raises

/-- Only `SEQUENCE` has the code 4 (R118). -/
theorem CmdError.code_eq_four {e : CmdError} : e.code = 4#4 ↔ e = .sequence := by cases e <;> decide

/-- Stages that raise no `SEQUENCE` leave the code 4 only where it stood before. -/
theorem errcode_of_no_sequence {s t : State} {r : Progress} (hf : r.Holds (StageFrame s))
    (hr : r.RaisesOnly (· ≠ .sequence)) (h : r.outcome = .next t) (ht : t.status.errcode = 4#4) :
    s.status.errcode = 4#4 := by
  rcases outcome_next h with ⟨u, rfl, rfl⟩ | ⟨e, u, rfl, rfl⟩
  · rwa [finish_status, StageFrame.status hf] at ht
  · exact absurd (CmdError.code_eq_four.1 ht) hr

end Sys2Proof.Machine
end

section
/-! SUPPORT. What the writes of `CMD` and `STATUS` do, case by case, and whose turn a step takes (R7, R72, R74, R78). -/

namespace Sys2Proof.Machine

/-- A write of `CMD` while a command runs is dropped with `OVR` set (R72). -/
theorem cmdWrite_busy (w : Word) {s : State} (h : s.status.busy = true) :
    cmdWrite w s = { s with status := { s.status with ovr := true } } := if_pos h

/-- The word 0 has no effect while no command runs (R72, R73). -/
theorem cmdWrite_zero {s : State} (h : s.status.busy = false) : cmdWrite 0x00000000#32 s = s := by simp [cmdWrite, h]

/-- Any other word is accepted while no command runs (R72). -/
theorem cmdWrite_accepted {w : Word} {s : State} (h : s.status.busy = false) (hw : w ≠ 0x00000000#32) :
    cmdWrite w s = acceptCommand w s := by simp [cmdWrite, h, hw]

/-- A host write of `CMD` at its address, slot 0 of the window. -/
theorem step_cmdWrite {s : State} {w : Word} {rest : List HostEvent}
    (h : s.inbox = .regWrite s.platform.regBase 32 w :: rest) :
    step s = .next (withReply .ack (cmdWrite w (withInbox rest s))) := step_regWrite (k := 0) (by omega) h

/-- The flags after a write of `STATUS`, each by its own bit (R78). -/
theorem statusAfterWrite_eq (w : Word) (t : Status) : statusAfterWrite w t = {
    busy := t.busy
    done := t.done && !w.getLsbD 1
    err := t.err && !w.getLsbD 2
    ovr := t.ovr && !w.getLsbD 3
    errcode := if w.getLsbD 2 = true then 0#4 else t.errcode
    pk := t.pk } := by
  have cleared (b f : Bool) : (if b = true then false else f) = (f && !b) := by cases b <;> simp
  simp only [statusAfterWrite, cleared]

theorem engineTurn_busy {s : State} (h : s.status.busy = true) : engineTurn s = exec (decode s.pend) s := if_pos h

theorem engineTurn_idle {s : State} (h : s.status.busy = false) : engineTurn s = .next s := by simp [engineTurn, h]

/-- A word but 0 that has been placed is run by the very next step, from the state of its acceptance. -/
theorem step_placeCommand {w : Word} (hw : w ≠ 0x00000000#32) (s : State) :
    step (placeCommand w s) = exec (decode w) (acceptCommand w s) := by
  have runs : engineTurn (acceptCommand w s) = exec (decode w) (acceptCommand w s) := engineTurn_busy rfl
  rw [placeCommand, if_neg hw]
  cases hi : s.inbox with
  | nil => exact (step_engine (s := acceptCommand w s) hi).trans runs
  | cons e rest =>
    have back : withInbox (e :: rest) (acceptCommand w s) = acceptCommand w s := by rw [← hi]; rfl
    calc step (withInbox (.engine :: e :: rest) (acceptCommand w s))
        = engineTurn (withInbox (e :: rest) (acceptCommand w s)) :=
          step_event (s := withInbox (.engine :: e :: rest) (acceptCommand w s)) rfl
      _ = exec (decode w) (acceptCommand w s) := by rw [back, runs]

end Sys2Proof.Machine
end

section
/-! SUPPORT. The obligations about control: how commands come to run and how they end. -/

namespace Sys2Proof.Machine

/-- Settles O41: the stages keep every flag, and `finish` or the error sets its own. -/
theorem commandsEndDoneOrError : Obligations.CommandsEndDoneOrError := by
  intro i s t hi h
  obtain ⟨r, frame, hr⟩ := exec_stages hi s
  rcases outcome_next (hr ▸ h) with ⟨u, rfl, rfl⟩ | ⟨e, u, rfl, rfl⟩
  · rw [finish_status, StageFrame.status frame]
    exact ⟨rfl, rfl, .inl ⟨rfl, rfl, rfl⟩⟩
  · rw [raiseError_status, StageFrame.status frame]
    exact ⟨rfl, rfl, .inr ⟨rfl, e.one_le_code, e.code_range.2, rfl⟩⟩

/-- Settles O6: NOP is a write of the word 0 to `CMD`. -/
theorem nopCompletes : Obligations.NopCompletes := fun _ =>
  ⟨fun idle => congrArg Host.Outcome.next (cmdWrite_zero idle),
    fun busy => congrArg Host.Outcome.next (cmdWrite_busy 0x00000000#32 busy)⟩

/-- Settles O7: the word is of the ILLEGAL row, whose meaning is a pre-check error. -/
theorem illegalWordCompletes : Obligations.IllegalWordCompletes := fun _ w h =>
  ⟨decode_of_illegalWord ((illegalWord_iff w).2 h), rfl⟩

/-- Settles O8: with an empty inbox, or `engine` first, the step is the engine's turn. -/
theorem stepRunsPendingCommand : Obligations.StepRunsPendingCommand := by
  refine ⟨fun s busy h => ?_, fun s rest busy h => ?_, fun s idle h => ?_, fun s rest idle h => ?_,
    fun s n hn h0 => ?_⟩
  · rw [step_engine h, engineTurn_busy busy]
  · exact (step_event h).trans (engineTurn_busy (s := withInbox rest s) busy)
  · rw [step_engine h, engineTurn_idle idle]
  · exact (step_event h).trans (engineTurn_idle (s := withInbox rest s) idle)
  · have nonzero : BitVec.ofNat 32 n ≠ 0x00000000#32 := by
      rw [ne_eq, ← BitVec.toNat_inj, BitVec.toNat_ofNat, Nat.mod_eq_of_lt hn]
      exact h0
    have word : n % 2 ^ 32 = n := Nat.mod_eq_of_lt hn
    rw [State.withFetchWord, word, step_placeCommand nonzero]
    rfl

/-- Settles O9: the step takes the write of slot 0, and NOP is the write of its word. -/
theorem stepRunsNopWrite : Obligations.StepRunsNopWrite := fun s rest h =>
  ⟨rfl, cmdWrite 0x00000000#32 (withInbox rest s), rfl, step_cmdWrite h⟩

/-- Settles O10, by the three cases of a `CMD` write. -/
theorem cmdWriteAcceptsOrOverruns : Obligations.CmdWriteAcceptsOrOverruns := by
  intro s w rest h
  rw [step_cmdWrite h]
  refine ⟨fun busy => ?_, fun idle zero => ?_, fun idle nonzero => ?_⟩
  · rw [cmdWrite_busy w (s := withInbox rest s) busy]
    rfl
  · rw [zero, cmdWrite_zero (s := withInbox rest s) idle]
    rfl
  · rw [cmdWrite_accepted (s := withInbox rest s) idle nonzero]
    rfl

/-- Settles O22: each stage's command with its requirement unmet, and the errors that the stages of REDUCE and CONVERT
raise. -/
theorem stageRequirements : Obligations.StageRequirements := by
  intro s i
  rw [← raiseError_sequence, exec_core i]
  refine ⟨fun hi unmet => ?_, fun hi unmet => ?_, fun hi no1 no4 => ?_, fun hi t h => ?_⟩
  · rcases hi with hi | hi <;> rw [hi]
    · exact execAdjust_unmet unmet
    · exact execDither_unmet unmet
  · rw [hi]
    exact execQuantize_unmet unmet
  · rw [hi]
    exact execPack_unmet (not_or.2 ⟨no1, no4⟩)
  · rcases hi with rfl | rfl
    · exact errcode_of_no_sequence (reduceStages_frame s) (reduceStages_raises s) h
    · exact errcode_of_no_sequence (convertStages_frame s) (convertStages_raises s) h

/-- Settles O45: the step takes the write of slot 1, which clears the flags by their bits. -/
theorem statusWriteClearsFlags : Obligations.StatusWriteClearsFlags := by
  intro s w rest h
  rw [step_regWrite (k := 1) (by omega) h]
  show Host.Outcome.next
    { s with status := statusAfterWrite w s.status, inbox := rest, reply := some .ack } = _
  rw [statusAfterWrite_eq]

end Sys2Proof.Machine
end

section
/-! SUPPORT. The checks of REDUCE and CONVERT in the numbers of the registers (R62, R81, R82, R83), and REDUCE's pixels:
the luminance, and what the loops of `ReduceBody()` do by whether every source byte can be read (R43, R85, R87). -/

namespace Sys2Proof.Machine

/-! ## The checks in the numbers of the registers (R62, R81) -/

/-- `sext_32` is the word read as two's complement. -/
theorem signedWord_eq_toInt (v : Word) : signedWord v = v.toInt := by
  rw [signedWord, BitVec.toInt_eq_toNat_cond]
  split <;> split <;> omega

/-- The plane width of a positive image width is the operands'. -/
theorem planeWidthOf_eq_operandPlaneWidth {r : ConvRegs} {f : ConfigFields} (hf : decodeConfig r.config = some f)
    (hw : 1 ≤ r.width.toInt) : (planeWidthOf f.outBpp r.width.toInt.toNat : Int) = operandPlaneWidth r := by
  obtain ⟨depth, -⟩ := decodeConfig_eq_some_iff.1 hf
  rw [operandPlaneWidth, depth]
  cases f.outBpp with
  | one => exact Int.toNat_of_nonneg (by omega)
  | four => simp only [planeWidthOf, OutBpp.value, ↓reduceIte]; omega

/-- The plane that the checks measure has as many cells as the operands say. -/
theorem planeCells_eq {r : ConvRegs} {f : ConfigFields} (hf : decodeConfig r.config = some f)
    (hw : 1 ≤ r.width.toInt) (hh : 1 ≤ r.height.toInt) :
    ((planeWidthOf f.outBpp r.width.toInt.toNat * r.height.toInt.toNat : Nat) : Int)
      = operandPlaneWidth r * r.height.toInt := by
  rw [Nat.cast_mul, planeWidthOf_eq_operandPlaneWidth hf hw, Int.toNat_of_nonneg (by omega)]

/-- Legal operands are those whose configuration decodes and whose percentages are at most 100. -/
theorem operandsLegal_iff (r : ConvRegs) :
    OperandsLegal r ↔ (∃ f, decodeConfig r.config = some f) ∧ r.brightness.toNat ≤ 100 ∧ r.contrast.toNat ≤ 100 := by
  rw [OperandsLegal, ← decodeConfig_isSome_iff, Option.isSome_iff_exists]

/-- Illegal operands fail the first checks, whatever the dimensions are. -/
theorem latchOf_illegalOperands {cap : Nat} {r : ConvRegs} (h : ¬ OperandsLegal r) :
    latchOf cap r = .error .badConfig := by
  refine latchOf_badConfig ?_
  by_cases hc : ConfigLegal r.config
  · by_contra legal
    exact h ⟨hc, by omega, by omega⟩
  · exact .inl (decodeConfig_eq_none hc)

/-- After legal operands the checks fail with `BAD_DIM` where the dimensions are illegal. -/
theorem latchOf_illegalDims {cap : Nat} {r : ConvRegs} (legal : OperandsLegal r) (h : ¬ DimsLegal cap r) :
    latchOf cap r = .error .badDim := by
  obtain ⟨⟨f, hf⟩, hb, hc⟩ := (operandsLegal_iff r).1 legal
  rw [latchOf_legal hf hb hc, signedWord_eq_toInt, signedWord_eq_toInt]
  by_cases small : r.width.toInt < 1 ∨ r.height.toInt < 1
  · rw [if_pos small]
  · have cells := planeCells_eq hf (by omega) (by omega)
    rw [if_neg small, if_pos]
    by_contra fits
    exact h ⟨by omega, by omega, by omega⟩

/-- After legal operands the checks pass where the dimensions are legal. -/
theorem latchOf_legalDims {cap : Nat} {r : ConvRegs} (legal : OperandsLegal r) (h : DimsLegal cap r) :
    ∃ L, latchOf cap r = .ok L := by
  obtain ⟨⟨f, hf⟩, hb, hc⟩ := (operandsLegal_iff r).1 legal
  obtain ⟨hw, hh, fits⟩ := h
  have cells := planeCells_eq hf hw hh
  rw [latchOf_legal hf hb hc, signedWord_eq_toInt, signedWord_eq_toInt, if_neg (by omega), if_neg (by omega)]
  exact ⟨_, rfl⟩

/-- A failing check ends REDUCE and CONVERT alike. -/
theorem exec_failedChecks {s : State} {i : Instr} {e : CmdError} (hi : i = .reduce ∨ i = .convert)
    (h : latchOf s.platform.planeCapacity s.snap = .error e) : exec i s = .next (raiseError e s) := by
  rcases hi with rfl | rfl
  · exact execReduce_failed h
  · exact execConvert_failed h

/-- The plane of a latch that passes the checks is at least as wide as its image (R29). -/
theorem le_pw_of_checksPass {s : State} {L : Latch} (h : ChecksPass s L) : L.w ≤ L.pw := by
  obtain ⟨f, -, -, -, -, -, -, rfl⟩ := latchOf_ok h
  exact le_planeWidthOf _ _

/-- CONVERT begins with the latch written where its checks pass and its destination region is clear (R46, R112). -/
theorem startConversion_clear {s : State} {L : Latch} (h : ChecksPass s L) (clear : DestClear s.platform L) :
    startConversion s = .going (writeLatch L s) := by
  rw [startConversion, checkAndLatch_ok h, andThen_going]
  rcases requireDestClear_cases (writeLatch L s) with ⟨-, overlaps⟩ | ⟨going, -⟩
  · exact absurd (overlaps.symm.trans clear) nofun
  · exact going

/-! ## The row size (R83) -/

theorem rowSizeOf_eq (w b : Nat) : rowSizeOf w b = (w * b + 3) / 4 * 4 := rfl

/-! ## The luminance (R87, R88) -/

/-- The weights add up to 1000, so the quotient is a byte. -/
theorem luma_toNat (r g b : Byte) :
    (luma r g b).toNat = (299 * r.toNat + 587 * g.toNat + 114 * b.toNat) / 1000 := by
  have hr := r.isLt; have hg := g.isLt; have hb := b.isLt
  rw [luma, BitVec.toNat_ofNat]
  exact Nat.mod_eq_of_lt (by omega)

theorem luma_gray (v : Byte) : luma v v v = v := by
  apply BitVec.eq_of_toNat_eq
  rw [luma_toNat]
  omega

/-! ## One cell of `ReduceBody()` (R43, R54, R85) -/

theorem portRead_ok {s : State} {a : Nat} (h : Platform.busOK s.platform .read (portAddress a) = true) :
    portRead s a = some (Memory.read s.mem (portAddress a)) := if_pos h

theorem portRead_error {s : State} {a : Nat} (h : ¬ Platform.busOK s.platform .read (portAddress a) = true) :
    portRead s a = none := if_neg h

/-- The value of the source pixel for the cell `(x, y)`: a free one where the host has written one of its bytes, else
its luminance. -/
def pixelValue (s : State) (x y : Nat) : Byte :=
  if sourceTouched s (sourceAddress s.latch x y) then Config.freeByte (s.freeCount + cellIndex s.latch.pw x y)
  else luma (Memory.read s.mem (portAddress (sourceAddress s.latch x y + 2)))
    (Memory.read s.mem (portAddress (sourceAddress s.latch x y + 1)))
    (Memory.read s.mem (portAddress (sourceAddress s.latch x y)))

/-- The value REDUCE gives the cell `(x, y)` where every source byte can be read. -/
def cellValue (s : State) (x y : Nat) : Byte := if x < s.latch.w then pixelValue s x y else 0#8

theorem reducedCell_readable {s : State} (h : SourceReadable s.platform s.latch) {x y : Nat} (hy : y < s.latch.h) :
    reducedCell s x y = some (cellValue s x y) := by
  unfold reducedCell cellValue
  by_cases hx : x < s.latch.w
  · have blue := portRead_ok (h x y 0 hx hy (by omega))
    have green := portRead_ok (h x y 1 hx hy (by omega))
    have red := portRead_ok (h x y 2 hx hy (by omega))
    rw [Nat.add_zero] at blue
    rw [if_pos hx, if_pos hx, blue, green, red]
    rfl
  · rw [if_neg hx, if_neg hx]

/-- One byte that cannot be read is enough for a cell to fail. -/
theorem reducedCell_unreadable {s : State} {x y k : Nat} (hx : x < s.latch.w) (hk : k < 3)
    (h : ¬ Platform.busOK s.platform .read (portAddress (sourceAddress s.latch x y + k)) = true) :
    reducedCell s x y = none := by
  have failed := portRead_error h
  unfold reducedCell
  rw [if_pos hx]
  split
  next b g r blue green red =>
    match k, hk with
    | 0, _ => exact nomatch blue.symm.trans failed
    | 1, _ => exact nomatch green.symm.trans failed
    | 2, _ => exact nomatch red.symm.trans failed
  next => rfl

/-- A pixel counts as touched only where the host has written one of its three bytes. -/
theorem sourceTouched_eq_false {s : State} {a : Nat}
    (h : ∀ k, k < 3 → s.touched.contains (portAddress (a + k)) = false) : sourceTouched s a = false := by
  have blue := h 0 (by omega)
  rw [Nat.add_zero] at blue
  rw [sourceTouched, blue, h 1 (by omega), h 2 (by omega)]
  rfl

/-- An untouched pixel's cell holds the luminance of the source pixel. -/
theorem cellValue_untouched {s : State} {x y : Nat} (hx : x < s.latch.w)
    (h : ∀ k, k < 3 → s.touched.contains (portAddress (sourceAddress s.latch x y + k)) = false) :
    (cellValue s x y).toNat = sourceLuma s.mem s.latch x y := by
  rw [cellValue, if_pos hx, pixelValue, sourceTouched_eq_false h, sourceLuma, if_pos hx]
  exact luma_toNat _ _ _

/-- The pad column holds 0. -/
theorem cellValue_pad {s : State} {x y : Nat} (hx : s.latch.w ≤ x) : cellValue s x y = 0#8 := if_neg (by omega)

/-! ## `ReduceBody()` as a whole (R85) -/

/-- Without a failing read the loops leave a LUMA8 plane. -/
theorem reduceBody_of_read {s : State} (clear : SourceClear s.platform s.latch)
    (read : (reducedPlane s).2 = false) :
    reduceBody s = .going { withReducedPlane (reducedPlane s).1 s with status := { s.status with pk := .luma8 } } := by
  rcases reduceBody_cases s with ⟨-, overlaps⟩ | ⟨-, failed, -⟩ | ⟨going, -, -⟩
  · exact absurd (overlaps.symm.trans clear) nofun
  · exact absurd (failed.symm.trans read) nofun
  · exact going

/-- A source byte of the image that cannot be read fails the loops with `BUS_READ`. -/
theorem reduceBody_unreadable {s : State} (hpw : s.latch.w ≤ s.latch.pw) (hph : s.latch.ph = s.latch.h)
    (clear : SourceClear s.platform s.latch) (unreadable : ¬ SourceReadable s.platform s.latch) :
    reduceBody s = .raised .busRead (withReducedPlane (reducedPlane s).1 s) := by
  simp only [SourceReadable, not_forall] at unreadable
  obtain ⟨x, y, k, hx, hy, hk, bad⟩ := unreadable
  have failed : (reducedPlane s).2 = true :=
    reducedPlane_failed (by omega) (by omega) (reducedCell_unreadable hx hk bad)
  rcases reduceBody_cases s with ⟨-, overlaps⟩ | ⟨raised, -, -⟩ | ⟨-, read, -⟩
  · exact absurd (overlaps.symm.trans clear) nofun
  · exact raised
  · exact absurd (failed.symm.trans read) nofun

end Sys2Proof.Machine
end

section
/-! SUPPORT. The obligations about check and latch and about REDUCE. -/

namespace Sys2Proof.Machine

/-- Settles O11: the checks in their order, and the end of a command whose checks fail. -/
theorem checkOrderOfReduceAndConvert : Obligations.CheckOrderOfReduceAndConvert := fun _ _ hi =>
  ⟨fun illegal => exec_failedChecks hi (latchOf_illegalOperands illegal),
    fun legal illegal => exec_failedChecks hi (latchOf_illegalDims legal illegal), latchOf_legalDims⟩

/-- Settles O12: the fields of the configuration word as the decoder reads them, and a latch that passes the checks is
coherent. -/
theorem latchHoldsSnapshotFields : Obligations.LatchHoldsSnapshotFields := by
  intro cap r L hcap h
  have coherent := latchCoherent_of_latchOf hcap h
  have rows := coherent.rowSize
  have packed := coherent.outLen
  obtain ⟨f, hf, -, -, hw, hh, -, rfl⟩ := latchOf_ok h
  rw [signedWord_eq_toInt] at hw hh
  have width := planeWidthOf_eq_operandPlaneWidth hf hw
  obtain ⟨depth, scan, order, method, invert, source, -, -⟩ := decodeConfig_eq_some_iff.1 hf
  simp only [signedWord_eq_toInt] at coherent rows packed ⊢
  rw [depth, scan, order, method, invert, source]
  exact ⟨rfl, rfl, rfl, rfl, rfl, rfl, rfl, Int.toNat_of_nonneg (by omega), Int.toNat_of_nonneg (by omega), width, rfl,
    rfl, rfl, rfl, rfl, rows, packed, coherent⟩

/-- Settles O15: with every byte read, the loops give each cell its value, and the rest is the latch and `finish`. -/
theorem reduceCompletes : Obligations.ReduceCompletes := by
  intro s L hL readable clear canonical
  have hph := ph_of_checksPass hL
  obtain ⟨read, -, cells, outside⟩ := reducedPlane_ok (s := writeLatch L s) canonical (cellValue (writeLatch L s))
    (fun x y _ hy => reducedCell_readable (s := writeLatch L s) readable (hph ▸ hy))
  refine ⟨(reducedPlane (writeLatch L s)).1, s.freeCount + L.pw * L.ph, ?_, fun x y hx hy untouched => ?_,
    fun x y hpad hx hy => ?_, fun j hj => outside j (hph.symm ▸ hj)⟩
  · show execReduce s = _
    rw [execReduce, checkAndLatch_ok hL, andThen_going, reduceBody_of_read (s := writeLatch L s) clear read,
      outcome_going]
    rfl
  · have inside : x < L.pw := Nat.lt_of_lt_of_le hx (le_pw_of_checksPass hL)
    exact (congrArg BitVec.toNat (cells x y inside (hph.symm ▸ hy))).trans
      (cellValue_untouched (s := writeLatch L s) hx untouched)
  · exact (cells x y hx (hph.symm ▸ hy)).trans (cellValue_pad (s := writeLatch L s) hpad)

/-- Settles O16: the loops notice the byte, and after `BUS_READ` no later stage of CONVERT is performed. -/
theorem busReadReleasesPlane : Obligations.BusReadReleasesPlane := by
  intro s L i hi hL clear destClear unreadable
  have raised := reduceBody_unreadable (s := writeLatch L s) (le_pw_of_checksPass hL) (ph_of_checksPass hL) clear
    unreadable
  refine ⟨(reducedPlane (writeLatch L s)).1, s.freeCount + L.pw * L.ph, ?_⟩
  rcases hi with rfl | rfl
  · show execReduce s = _
    rw [execReduce, checkAndLatch_ok hL, andThen_going, raised, outcome_raised]
    rfl
  · show execConvert s = _
    rw [execConvert, startConversion_clear hL (destClear rfl), andThen_going, raised, thenDo_raised, thenDo_raised,
      andThen_raised, outcome_raised]
    rfl

/-- Settles O13: the quotient's bounds, for each pixel size. -/
theorem rowSizeIsPaddedToFour : Obligations.RowSizeIsPaddedToFour := by
  refine ⟨fun w b => ?_, fun w b hw hb => ?_, rfl, rfl, rfl, rfl⟩
  · rw [rowSizeOf_eq]
    omega
  · rw [rowSizeOf_eq]
    rcases hb with rfl | rfl <;> omega

/-- Settles O18: the quotient is a byte, and `1000 v / 1000` is `v`. -/
theorem lumaIsExactFloor : Obligations.LumaIsExactFloor := ⟨luma_toNat, luma_gray, rfl, rfl, rfl⟩

end Sys2Proof.Machine
end

section
/-! SUPPORT. The adjusted value: its numerator, the byte as the clamped quotient, and the real formula (R89, R90). -/

namespace Sys2Proof.Machine

/-- An integer that fits a byte is kept by it. -/
theorem byteOfInt_toNat {n : Int} (h0 : 0 ≤ n) (h255 : n ≤ 255) : ((byteOfInt n).toNat : Int) = n := by
  rw [byteOfInt, BitVec.toNat_ofNat, Nat.mod_eq_of_lt (by omega), Int.toNat_of_nonneg h0]

/-- The clamped quotient of the numerator, 500 being positive (R90). -/
theorem adjusted_eq (v b c : Nat) : adjusted v b c = max 0 (min 255 (adjustNumerator v b c / 500)) := by
  rw [adjusted, ← adjustNumerator, Int.fdiv_eq_ediv_of_nonneg _ (by decide)]

/-- The byte is the clamped quotient, whatever the brightness and the contrast are (R90): the test for a negative
numerator is the clamp at 0. -/
theorem adjustValue_toNat (v : Byte) (b c : Nat) : ((adjustValue v b c).toNat : Int) = adjusted v.toNat b c := by
  rw [adjusted_eq, adjustValue, Int.fdiv_eq_ediv_of_nonneg _ (by decide)]
  split
  case isTrue negative =>
    have below : min 255 (adjustNumerator v.toNat b c / 500) ≤ 0 := by omega
    rw [max_eq_left below]
    rfl
  case isFalse nonnegative =>
    have above : 0 ≤ min 255 (adjustNumerator v.toNat b c / 500) := by omega
    rw [max_eq_right above, byteOfInt_toNat above (min_le_left _ _)]

/-- A byte is the adjusted value when its number is the clamped quotient. -/
theorem adjustValue_eq {v u : Byte} {b c : Nat}
    (h : (u.toNat : Int) = max 0 (min 255 (adjustNumerator v.toNat b c / 500))) : adjustValue v b c = u :=
  BitVec.eq_of_toNat_eq (Int.ofNat_inj.1 ((adjustValue_toNat v b c).trans ((adjusted_eq _ b c).trans h.symm)))

/-! ## The numerator in the special cases (R91) -/

/-- Brightness at neutral contrast moves the cell by `5.1 (b − 50)` and nothing else. -/
theorem adjustNumerator_neutral_contrast (v b : Nat) :
    adjustNumerator v b 50 = 500 * (v : Int) + 2550 * ((b : Int) - 50) := by
  rw [adjustNumerator]
  omega

/-- Contrast 0 leaves the middle value, 127.5. -/
theorem adjustNumerator_zero_contrast (v b : Nat) : adjustNumerator v b 0 = 63750 := by simp [adjustNumerator]

/-- Contrast 100 at neutral brightness doubles the distance from 127.5. -/
theorem adjustNumerator_double_contrast (v : Nat) : adjustNumerator v 50 100 = 250 * (4 * (v : Int) - 255) := by
  rw [adjustNumerator]
  omega

/-- Below the clamp at 0, truncating and rounding down do not differ. -/
theorem clamp_tdiv_two (n : Int) : max 0 (min 255 (Int.tdiv n 2)) = max 0 (min 255 (n / 2)) := by
  rcases le_or_gt 0 n with nonneg | neg
  · rw [Int.tdiv_eq_ediv_of_nonneg nonneg]
  · have truncated : Int.tdiv n 2 ≤ 0 := by
      rw [← neg_neg n, Int.neg_tdiv, Int.tdiv_eq_ediv_of_nonneg (by omega)]
      omega
    omega

/-! ## The real formula (R89) -/

/-- The numerator is 500 times the unclamped real result. -/
theorem adjustNumerator_div_eq_real (v b c : Nat) : (adjustNumerator v b c : ℚ) / (500 : Nat) =
    (((v : ℚ) + ((b : ℚ) - 50) * (51 / 10)) - 255 / 2) * ((c : ℚ) / 50) + 255 / 2 := by
  rw [adjustNumerator]
  push_cast
  ring

/-- The integer part of a clamped rational is the clamped integer part. -/
theorem floor_clamp (q : ℚ) : ⌊max 0 (min 255 q)⌋ = max 0 (min 255 ⌊q⌋) := by
  rw [Int.floor_mono.map_max, Int.floor_mono.map_min, Int.floor_zero, Int.floor_ofNat]

end Sys2Proof.Machine
end

section
/-! SUPPORT. The obligations about ADJUST. -/

namespace Sys2Proof.Machine

/-- Settles O19: ADJUST's requirement is met, and its loop gives every cell its own adjusted value. -/
theorem adjustCompletes : Obligations.AdjustCompletes := by
  intro s luma one canonical
  obtain ⟨-, cells, outside⟩ := planeMap_spec s.latch.pw s.latch.ph
    (fun _ _ v => adjustValue v s.latch.b s.latch.c) canonical
  refine ⟨(adjustBody s).plane, ?_, fun x y hx hy => ?_, outside⟩
  · show execAdjust s = _
    rw [execAdjust, requireLumaForOneBpp_met luma one, thenDo_going, outcome_going]
    rfl
  · rw [adjustBody_plane, cells x y hx hy, adjustValue_toNat]

/-- Settles O20: the integer part is the quotient by 500, and taking it commutes with the clamp. -/
theorem adjustIsTheRealFormula : Obligations.AdjustIsTheRealFormula := by
  intro v b c _ _
  rw [← adjustNumerator_div_eq_real, floor_clamp, Rat.floor_intCast_div_natCast]
  exact (adjustValue_toNat v b c).trans (adjusted_eq v.toNat b c)

/-- Settles O21, by the numerator of each case. -/
theorem adjustNeutralFlatAndDouble : Obligations.AdjustNeutralFlatAndDouble := by
  refine ⟨fun v => adjustValue_eq ?_, fun v b _ => adjustValue_eq ?_, fun v => adjustValue_eq ?_,
    fun v => adjustValue_eq ?_, fun v => ?_, rfl, rfl, rfl, rfl⟩
  · rw [adjustNumerator_neutral_contrast]
    omega
  · rw [adjustNumerator_zero_contrast]
    rfl
  · rw [adjustNumerator_neutral_contrast, BitVec.toNat_ofNat]
    omega
  · rw [adjustNumerator_neutral_contrast, BitVec.toNat_ofNat]
    omega
  · rw [adjustValue_toNat, adjusted_eq, adjustNumerator_double_contrast, clamp_tdiv_two]
    omega

end Sys2Proof.Machine
end

section
/-! SUPPORT. Floyd-Steinberg as an algorithm on grids (R95, R96, R100): a cell is final once its turn has passed, and a
grid of 0 and 255 carries no error to spread. The machine's byte-level loop runs this algorithm on the plane. -/

namespace Sys2Proof.Machine

/-! ## Loops and the order of the cells -/

/-- Two loops whose turns keep a relation between their states end in related states. -/
theorem forRange_related {σ τ : Type} {n : Nat} {f : Nat → σ → σ} {g : Nat → τ → τ} {s : σ} {t : τ}
    (R : σ → τ → Prop) (h0 : R s t) (hs : ∀ i a b, i < n → R a b → R (f i a) (g i b)) :
    R (forRange n f s) (forRange n g t) := by
  induction n with
  | zero => exact h0
  | succ n ih => exact hs n _ _ n.lt_succ_self (ih fun i a b hi => hs i a b (Nat.lt_succ_of_lt hi))

/-- Two row-by-row loops whose turns keep a relation between their states end in related states. -/
theorem forCells_related {σ τ : Type} {w h : Nat} {f : Nat → Nat → σ → σ} {g : Nat → Nat → τ → τ} {s : σ} {t : τ}
    (R : σ → τ → Prop) (h0 : R s t) (hs : ∀ x y a b, x < w → y < h → R a b → R (f x y a) (g x y b)) :
    R (forCells w h f s) (forCells w h g t) :=
  forRange_related R h0 fun y _ _ hy hab => forRange_related R hab fun x a b hx => hs x y a b hx hy

/-- A cell not after `(x, y)` in row order stands in an earlier row, or in the same row and not to the right. -/
theorem row_order_of_cellIndex_le {w x y x' y' : Nat} (hx : x < w) (hle : cellIndex w x' y' ≤ cellIndex w x y) :
    y' < y ∨ y' = y ∧ x' ≤ x := by
  unfold cellIndex at hle
  rcases lt_trichotomy y' y with above | rfl | below
  · exact .inl above
  · exact .inr ⟨rfl, by omega⟩
  · have next_row : (y + 1) * w ≤ y' * w := Nat.mul_le_mul_right w below
    rw [Nat.succ_mul] at next_row
    omega

/-! ## One pixel on a grid (R95) -/

theorem gridSet_same (g : Grid) (x y : Nat) : gridSet g x y (g x y) = g := by
  funext i j
  rw [gridSet, ite_eq_right_iff]
  rintro ⟨rfl, rfl⟩
  rfl

theorem gridQuantize_binary (v : Int) : gridQuantize v = 0 ∨ gridQuantize v = 255 := by
  unfold gridQuantize
  split
  · exact .inr rfl
  · exact .inl rfl

theorem gridQuantize_of_binary {v : Int} (hv : v = 0 ∨ v = 255) : gridQuantize v = v := by
  rcases hv with rfl | rfl <;> rfl

/-- `Spread` changes the cell it names at most. -/
theorem gridSpread_other {w h x y : Nat} {e k i j : Int} (g : Grid) (other : ¬ ((x : Int) = i ∧ (y : Int) = j)) :
    gridSpread w h e k i j g x y = g x y := by
  unfold gridSpread
  split
  · exact if_neg (by omega)
  · rfl

/-- The turn of `(x, y)` changes no cell before it in row order, and leaves its own quantized: its neighbours all come
after it. -/
theorem gridFloydCell_not_after {w h x y x' y' : Nat} (g : Grid) (order : y' < y ∨ y' = y ∧ x' ≤ x) :
    gridFloydCell w h x y g x' y' = gridSet g x y (gridQuantize (g x y)) x' y' := by
  unfold gridFloydCell
  rw [gridSpread_other _ (by omega), gridSpread_other _ (by omega), gridSpread_other _ (by omega),
    gridSpread_other _ (by omega)]

/-! ## Grids of 0 and 255 (R96, R100) -/

/-- Every cell of the `w × h` plane is 0 or 255. -/
def BinaryGrid (w h : Nat) (g : Grid) : Prop := ∀ x y, x < w → y < h → g x y = 0 ∨ g x y = 255

/-- After Floyd-Steinberg every cell is 0 or 255 (R96): each has been quantized, and no later turn changed it. -/
theorem gridFloyd_binary (w h : Nat) (g : Grid) : BinaryGrid w h (gridFloyd w h g) := by
  have passed := forCells_induct (w := w) (h := h) (f := gridFloydCell w h) (s := g)
    (fun n g => ∀ x y, x < w → y < h → cellIndex w x y < n → g x y = 0 ∨ g x y = 255)
    (fun _ _ _ _ before => absurd before (Nat.not_lt_zero _)) ?turn
  · exact fun x y hx hy => passed x y hx hy (cellIndex_lt hx hy)
  case turn =>
    intro x y g hx _ ih x' y' hx' hy' before
    rw [gridFloydCell_not_after g (row_order_of_cellIndex_le hx (Nat.le_of_lt_succ before)), gridSet]
    split
    · exact gridQuantize_binary _
    · next other =>
      have different : cellIndex w x' y' ≠ cellIndex w x y := fun same => other ((cellIndex_inj hx' hx).1 same)
      exact ih x' y' hx' hy' (by omega)

/-- An error of 0 changes no cell of a grid of 0 and 255. -/
theorem gridSpread_zero {w h : Nat} {g : Grid} (hg : BinaryGrid w h g) (k i j : Int) :
    gridSpread w h 0 k i j g = g := by
  unfold gridSpread
  split
  · have kept : max 0 (min 255 (g i.toNat j.toNat + Int.tdiv (0 * k) 16)) = g i.toNat j.toNat := by
      rw [zero_mul, Int.zero_tdiv, add_zero]
      rcases hg i.toNat j.toNat (by omega) (by omega) with black | white
      · rw [black]; rfl
      · rw [white]; rfl
    rw [kept, gridSet_same]
  · rfl

/-- Floyd-Steinberg leaves a grid of 0 and 255 as it is (R100): every error is 0. -/
theorem gridFloyd_of_binary {w h : Nat} {g : Grid} (hg : BinaryGrid w h g) : gridFloyd w h g = g := by
  refine forCells_keeps (fun t => t = g) rfl ?_
  rintro x y _ hx hy rfl
  simp only [gridFloydCell, gridQuantize_of_binary (hg x y hx hy), sub_self, gridSet_same, gridSpread_zero hg]

/-! ## The machine's loop runs the grid's (R95) -/

/-- The cells of a `w × h` plane in the buffer `p`, which is in canonical form, are those of the grid. -/
structure HoldsGrid (w h : Nat) (p : Memory) (g : Grid) : Prop where
  canonical : Memory.wf p = true
  cells : ∀ x y, x < w → y < h → gridOf p w x y = g x y

theorem holdsGrid_gridOf {p : Memory} (canonical : Memory.wf p = true) (w h : Nat) : HoldsGrid w h p (gridOf p w) :=
  ⟨canonical, fun _ _ _ _ => rfl⟩

theorem clamp_eq_max_min (v : Int) : clamp v 0 255 = max 0 (min 255 v) := by
  unfold clamp
  split
  · omega
  · split <;> omega

theorem floydQuantize_toNat (v : Byte) : ((floydQuantize v).toNat : Int) = gridQuantize v.toNat := by
  by_cases high : 127 < v.toNat
  · rw [floydQuantize, if_pos high, gridQuantize, if_pos (by omega)]
    rfl
  · rw [floydQuantize, if_neg high, gridQuantize, if_neg (by omega)]
    rfl

theorem diffuse_toNat (v : Byte) (e k : Int) :
    ((diffuse v e k).toNat : Int) = max 0 (min 255 (v.toNat + Int.tdiv (e * k) 16)) := by
  rw [diffuse, clamp_eq_max_min, byteOfInt_toNat (le_max_left _ _) (max_le (by decide) (min_le_left _ _)), truncDiv]

section
variable {w h : Nat} {p : Memory} {g : Grid}

theorem HoldsGrid.set (hp : HoldsGrid w h p g) {x y : Nat} {v : Byte} {n : Int} (hx : x < w) (hv : (v.toNat : Int) = n) :
    HoldsGrid w h (planeSet p w x y v) (gridSet g x y n) := by
  refine ⟨wf_planeSet hp.canonical w x y v, fun x' y' hx' hy' => ?_⟩
  rw [gridOf, planeGet_planeSet hp.canonical v hx hx', gridSet]
  split
  · exact hv
  · exact hp.cells x' y' hx' hy'

theorem HoldsGrid.spread (hp : HoldsGrid w h p g) (e k i j : Int) :
    HoldsGrid w h (Machine.spread w h e k i j p) (gridSpread w h e k i j g) := by
  unfold Machine.spread gridSpread
  split
  · have hx : i.toNat < w := by omega
    have old : ((planeGet p w i.toNat j.toNat).toNat : Int) = g i.toNat j.toNat := hp.cells _ _ hx (by omega)
    exact hp.set hx (by rw [diffuse_toNat, old])
  · exact hp

/-- A turn of the machine's loop is the turn of the grid's. -/
theorem HoldsGrid.floydCell (hp : HoldsGrid w h p g) {x y : Nat} (hx : x < w) (hy : y < h) :
    HoldsGrid w h (Machine.floydCell w h x y p) (gridFloydCell w h x y g) := by
  have old : ((planeGet p w x y).toNat : Int) = g x y := hp.cells x y hx hy
  have quantized : ((floydQuantize (planeGet p w x y)).toNat : Int) = gridQuantize (g x y) := by
    rw [floydQuantize_toNat, old]
  unfold Machine.floydCell spreadAll gridFloydCell
  rw [quantized, old]
  exact ((((hp.set hx quantized).spread _ _ _ _).spread _ _ _ _).spread _ _ _ _).spread _ _ _ _

/-- Floyd-Steinberg on the plane buffer is Floyd-Steinberg on the grid it holds (R95). -/
theorem HoldsGrid.floydSteinberg (hp : HoldsGrid w h p g) :
    HoldsGrid w h (Machine.floydSteinberg w h p) (gridFloyd w h g) :=
  forCells_related (HoldsGrid w h) hp fun _ _ _ _ hx hy hab => hab.floydCell hx hy

end

/-- Some bound is above every listed address. -/
theorem Memory.exists_below (m : Memory) (lo : Nat) : ∃ n, lo ≤ n ∧ Memory.below n m = true := by
  induction m generalizing lo with
  | nil => exact ⟨lo, le_rfl, rfl⟩
  | cons cell m ih =>
    obtain ⟨n, hn, hm⟩ := ih (max lo (cell.1 + 1))
    have above : cell.1 < n := by omega
    exact ⟨n, by omega, by simpa [Memory.below, above] using hm⟩

/-- Floyd-Steinberg leaves the places outside the plane alone. -/
theorem read_floydSteinberg_outside {w h j : Nat} {p : Memory} (canonical : Memory.wf p = true) (hj : w * h ≤ j) :
    Memory.read (floydSteinberg w h p) j = Memory.read p j := by
  obtain ⟨n, hn, hb⟩ := Memory.exists_below p (w * h)
  obtain ⟨-, -, outside⟩ := floydSteinberg_keeps hn canonical hb
  exact outside j hj

/-! ## Planes of 0 and 255 -/

theorem byte_binary_iff (v : Byte) : (v = 0#8 ∨ v = 255#8) ↔ ((v.toNat : Int) = 0 ∨ (v.toNat : Int) = 255) := by
  rw [← BitVec.toNat_inj, ← BitVec.toNat_inj, BitVec.toNat_ofNat, BitVec.toNat_ofNat]
  omega

/-- A plane's cells are bytes 0 and 255 where its grid is one of 0 and 255. -/
theorem binaryGrid_gridOf {w h : Nat} {p : Memory} :
    BinaryGrid w h (gridOf p w) ↔ ∀ x y, x < w → y < h → planeGet p w x y = 0#8 ∨ planeGet p w x y = 255#8 := by
  simp only [BinaryGrid, gridOf, byte_binary_iff]

theorem floydSteinberg_binary {w h : Nat} {p : Memory} (canonical : Memory.wf p = true) :
    BinaryGrid w h (gridOf (floydSteinberg w h p) w) := by
  intro x y hx hy
  rw [(holdsGrid_gridOf canonical w h).floydSteinberg.cells x y hx hy]
  exact gridFloyd_binary w h _ x y hx hy

theorem planeGet_floydSteinberg_of_binary {w h x y : Nat} {p : Memory} (canonical : Memory.wf p = true)
    (binary : BinaryGrid w h (gridOf p w)) (hx : x < w) (hy : y < h) :
    planeGet (floydSteinberg w h p) w x y = planeGet p w x y := by
  have same := (holdsGrid_gridOf canonical w h).floydSteinberg.cells x y hx hy
  rw [gridFloyd_of_binary binary] at same
  exact BitVec.eq_of_toNat_eq (Int.ofNat_inj.1 same)

end Sys2Proof.Machine
end

section
/-! SUPPORT. The ordered method's thresholds (R97, R100), and what a row of DITHER answers where its requirement is met
(R93, R114). -/

namespace Sys2Proof.Machine

/-! ## The ordered method -/

/-- The matrix entry, by row `y mod 8` and column `x mod 8` (R97). -/
theorem bayerAt_eq (pf : Platform) (x y : Nat) (inside : 8 * (y % 8) + x % 8 < 64) :
    bayerAt pf x y = pf.bayer[8 * (y % 8) + x % 8].toNat := by
  simp only [bayerAt, Nat.mul_comm (y % 8) 8]

/-- The matrix is tiled: its entry depends on the position in the tile alone (R97). -/
theorem bayerAt_tiled (pf : Platform) {x y x' y' : Nat} (hx : x % 8 = x' % 8) (hy : y % 8 = y' % 8) :
    bayerAt pf x y = bayerAt pf x' y' := by
  simp only [bayerAt, hx, hy]

/-- No entry reaches the value 255, whatever the platform's matrix is (R5). -/
theorem bayerAt_lt (pf : Platform) (x y : Nat) : bayerAt pf x y < 64 := BitVec.isLt _

theorem orderedValue_of_binary (pf : Platform) (x y : Nat) {v : Byte} (hv : v = 0#8 ∨ v = 255#8) :
    orderedValue pf x y v = v := by
  rcases hv with rfl | rfl
  · exact if_neg (Nat.not_lt_zero _)
  · exact if_pos (Nat.lt_trans (bayerAt_lt pf x y) (by decide))

/-- Each cell after the ordered method (R97). -/
theorem planeGet_ordered (pf : Platform) {w h x y : Nat} {p : Memory} (canonical : Memory.wf p = true) (hx : x < w)
    (hy : y < h) : planeGet (ordered pf w h p) w x y = orderedValue pf x y (planeGet p w x y) := by
  obtain ⟨-, cells, -⟩ := planeMap_spec w h (orderedValue pf) canonical
  exact cells x y hx hy

/-- The ordered method leaves the places outside the plane alone. -/
theorem read_ordered_outside (pf : Platform) {w h j : Nat} {p : Memory} (canonical : Memory.wf p = true)
    (hj : w * h ≤ j) : Memory.read (ordered pf w h p) j = Memory.read p j := by
  obtain ⟨-, -, outside⟩ := planeMap_spec w h (orderedValue pf) canonical
  exact outside j hj

/-! ## The rows of DITHER -/

/-- `DitherBody()` changes the plane at most (R93). -/
theorem ditherBody_eq (s : State) : ditherBody s = { s with plane := (ditherBody s).plane } := by
  unfold ditherBody; cases s.latch.dither <;> rfl

/-- Every row of DITHER completes where its requirement is met, with the plane of `DitherBody()` (R68, R93, R114). -/
theorem exec_dither_met {s : State} {i : Instr} (row : i.core = .dither) (luma : s.status.pk = .luma8)
    (one : s.latch.outBpp = .one) :
    exec i s = .next { s with plane := (ditherBody s).plane, status := s.status.finished, touched := [] } := by
  rw [exec_core i, row]
  show execDither s = _
  rw [execDither, requireLumaForOneBpp_met luma one, thenDo_going, outcome_going, ditherBody_eq]
  rfl

end Sys2Proof.Machine
end

section
/-! SUPPORT. The obligations about DITHER. -/

namespace Sys2Proof.Machine

/-- Settles O24: DITHER's requirement is met, and the method none keeps the plane. -/
theorem ditherNoneCompletes : Obligations.DitherNoneCompletes := by
  intro s i row luma one method
  have core : i.core = .dither := by rcases row with rfl | rfl <;> rfl
  rw [exec_dither_met core luma one, ditherBody_plane, method]

/-- Settles O25: DITHER's requirement is met, and the machine's loop runs the error diffusion on the grid of the old
cells. -/
theorem floydSteinbergCompletes : Obligations.FloydSteinbergCompletes := by
  intro s i row luma one method canonical
  have core : i.core = .dither := by rcases row with rfl | rfl <;> rfl
  refine ⟨floydSteinberg s.latch.pw s.latch.ph s.plane, ?_, ?_, fun j => read_floydSteinberg_outside canonical⟩
  · rw [exec_dither_met core luma one, ditherBody_plane, method]
  · exact (holdsGrid_gridOf canonical s.latch.pw s.latch.ph).floydSteinberg.cells

/-- Settles O26: the grid after the error diffusion is one of 0 and 255. -/
theorem floydSteinbergIsBinary : Obligations.FloydSteinbergIsBinary :=
  ⟨fun _ _ _ canonical => binaryGrid_gridOf.1 (floydSteinberg_binary canonical), rfl⟩

/-- Settles O27: DITHER's requirement is met, and the loop compares every cell with its matrix entry. -/
theorem orderedDitherCompletes : Obligations.OrderedDitherCompletes := by
  intro s i row luma one method canonical
  have core : i.core = .dither := by rcases row with rfl | rfl <;> rfl
  refine ⟨ordered s.platform s.latch.pw s.latch.ph s.plane, ?_, fun x y inside hx hy => ?_,
    fun j => read_ordered_outside s.platform canonical⟩
  · rw [exec_dither_met core luma one, ditherBody_plane, method]
  · rw [planeGet_ordered s.platform canonical hx hy, orderedValue, bayerAt_eq s.platform x y inside]

/-- Settles O28: the errors of a plane of 0 and 255 are 0, the matrix entries lie between the two, and the matrix is
tiled. -/
theorem dithersFixBinaryPlanes : Obligations.DithersFixBinaryPlanes := by
  refine ⟨fun pf w h p canonical binary x y hx hy => ⟨?_, ?_⟩, fun pf x y x' y' v hx hy => ?_⟩
  · exact planeGet_floydSteinberg_of_binary canonical (binaryGrid_gridOf.2 binary) hx hy
  · rw [planeGet_ordered pf canonical hx hy, orderedValue_of_binary pf x y (binary x y hx hy)]
  · rw [orderedValue, orderedValue, bayerAt_tiled pf hx hy]

end Sys2Proof.Machine
end

section
/-! SUPPORT. QUANTIZE: the level of one cell as a number, the plane after `QuantizeBody()`, and the end of its rows. -/

namespace Sys2Proof.Machine

/-! ## The level of one cell -/

/-- The level of the depth for a brightness: `Q1` or `Q4` (R102, R103). -/
def quantizeValue (depth : OutBpp) (v : Byte) : Byte :=
  match depth with
  | .one => quantizeOne v
  | .four => quantizeFour v

/-- `Q1` on numbers (R102). -/
theorem quantizeValue_one_toNat (v : Byte) : (quantizeValue .one v).toNat = if 127 < v.toNat then 1 else 0 :=
  apply_ite BitVec.toNat (127 < v.toNat) 1#8 0#8

/-- `Q4` on numbers: a byte's high digit is at most 15, so the bound of R103 never cuts. -/
theorem quantizeValue_four_toNat (v : Byte) : (quantizeValue .four v).toNat = v.toNat / 16 := by
  have digit : v.toNat / 16 < 16 := Nat.div_lt_of_lt_mul v.isLt
  rw [quantizeValue, quantizeFour, Nat.min_eq_right (Nat.le_of_lt_succ digit)]
  exact (BitVec.toNat_ofNat ..).trans (Nat.mod_eq_of_lt (digit.trans (by decide)))

/-! ## The plane -/

/-- `QuantizeBody()` replaces every cell by its level of the latched depth (R101). -/
theorem quantizeBody_planeMap (s : State) : (quantizeBody s).plane =
    planeMap s.latch.pw s.latch.ph (fun _ _ => quantizeValue s.latch.outBpp) s.plane :=
  quantizeBody_plane s

/-- Each cell after `QuantizeBody()` (R101). -/
theorem planeGet_quantizeBody {s : State} {x y : Nat} (canonical : Memory.wf s.plane = true) (hx : x < s.latch.pw)
    (hy : y < s.latch.ph) : planeGet (quantizeBody s).plane s.latch.pw x y =
      quantizeValue s.latch.outBpp (planeGet s.plane s.latch.pw x y) := by
  obtain ⟨-, cells, -⟩ := planeMap_spec s.latch.pw s.latch.ph (fun _ _ => quantizeValue s.latch.outBpp) canonical
  rw [quantizeBody_planeMap, cells x y hx hy]

/-- `QuantizeBody()` leaves the places outside the plane alone. -/
theorem read_quantizeBody_outside {s : State} {j : Nat} (canonical : Memory.wf s.plane = true)
    (hj : s.latch.pw * s.latch.ph ≤ j) : Memory.read (quantizeBody s).plane j = Memory.read s.plane j := by
  obtain ⟨-, -, outside⟩ := planeMap_spec s.latch.pw s.latch.ph (fun _ _ => quantizeValue s.latch.outBpp) canonical
  rw [quantizeBody_planeMap, outside j hj]

/-! ## The rows of QUANTIZE -/

/-- `QuantizeBody()` changes the plane and the status at most (R101). -/
theorem quantizeBody_eq (s : State) :
    quantizeBody s = { s with plane := (quantizeBody s).plane, status := (quantizeBody s).status } := by
  unfold quantizeBody; cases s.latch.outBpp <;> rfl

/-- Every row of QUANTIZE completes where its requirement is met, with what `QuantizeBody()` leaves (R68, R101, R114). -/
theorem exec_quantize_met {s : State} {i : Instr} (row : i.core = .quantize) (luma : s.status.pk = .luma8) :
    exec i s = .next { s with
      plane := (quantizeBody s).plane, status := (quantizeBody s).status.finished, touched := [] } := by
  rw [exec_core i, row]
  show execQuantize s = _
  rw [execQuantize, requireLuma_met luma, thenDo_going, outcome_going, quantizeBody_eq]
  rfl

end Sys2Proof.Machine
end

section
/-! SUPPORT. The obligation about QUANTIZE. -/

namespace Sys2Proof.Machine

/-- Settles O29: QUANTIZE's requirement is met, and its loop gives every cell its level of the latched depth. -/
theorem quantizeCompletes : Obligations.QuantizeCompletes := by
  intro s i row luma canonical
  have core : i.core = .quantize := by rcases row with rfl | rfl | rfl <;> rfl
  refine ⟨(quantizeBody s).plane, ?_, fun x y hx hy => ?_, fun j => read_quantizeBody_outside canonical⟩
  · rw [exec_quantize_met core luma, quantizeBody_status]
    rfl
  · rw [planeGet_quantizeBody canonical hx hy]
    cases s.latch.outBpp with
    | one => exact quantizeValue_one_toNat _
    | four => exact quantizeValue_four_toNat _

end Sys2Proof.Machine
end

section
/-! SUPPORT. The layouts of PACK as loops over an array of bytes: one byte for each pair of pixels at 4 bpp, one bit for
each pixel at 1 bpp, and the complement of every byte (R104, R107 to R111). -/

namespace Sys2Proof.Machine

/-! ## The packed length (R104) -/

theorem ceilDiv_two (a : Nat) : ceilDiv a 2 = (a + 1) / 2 := rfl

theorem ceilDiv_eight (a : Nat) : ceilDiv a 8 = (a + 7) / 8 := rfl

/-- The plane of a 4-bpp image has an even width. -/
theorem LatchCoherent.pw_even {cap : Nat} {L : Latch} (h : LatchCoherent cap L) (four : L.outBpp = .four) :
    L.pw = 2 * ((L.w + 1) / 2) := by
  have width := h.planeWidth
  rw [four, planeWidthOf] at width
  omega

/-- An output image has at most as many bytes as the plane has cells, in the numbers of the latch. -/
theorem LatchCoherent.outLen_le {cap : Nat} {L : Latch} (h : LatchCoherent cap L) :
    L.outLen.toNat ≤ L.pw * L.ph := by
  have rows : 1 ≤ L.ph := h.planeHeight ▸ h.heightPositive
  rw [h.outLen, h.planeWidth]
  exact outLenOf_le L.outBpp L.scan h.widthPositive rows

/-! ## One byte for each pair of pixels -/

/-- A byte of the array after another has been set. -/
theorem getD_set_byte {out : List Byte} {i k : Nat} (v : Byte) (hk : k < out.length) :
    (out.set i v).getD k 0#8 = if k = i then v else out.getD k 0#8 := by
  rw [List.getD_eq_getElem?_getD, List.getElem?_set]
  split
  next same => rw [if_pos same.symm, if_pos (same ▸ hk), Option.getD_some]
  next other => rw [if_neg (Ne.symm other), List.getD_eq_getElem?_getD]

/-- A loop that sets a byte at each turn keeps the length of the array. -/
theorem length_forCells_set (w h : Nat) (index : Nat → Nat → Nat) (f : Nat → Nat → Byte) (out : List Byte) :
    (forCells w h (fun x y o => o.set (index x y) (f x y)) out).length = out.length :=
  forCells_keeps (fun o : List Byte => o.length = out.length) rfl
    (fun _ _ _ _ _ kept => List.length_set.trans kept)

/-- The loop of the 4-bpp layouts: `n` pairs in each of `h` groups, one byte for each pair. -/
def fillPairs (n h : Nat) (f : Nat → Nat → Byte) (out : List Byte) : List Byte :=
  forCells n h (fun j y o => o.set (cellIndex n j y) (f j y)) out

/-- Each byte is that of its pair: no other pair's turn reaches it. -/
theorem getD_fillPairs {n h : Nat} (f : Nat → Nat → Byte) {out : List Byte} (room : n * h ≤ out.length) {j y : Nat}
    (hj : j < n) (hy : y < h) : (fillPairs n h f out).getD (cellIndex n j y) 0#8 = f j y := by
  have passed := forCells_induct (w := n) (h := h) (f := fun j y o => o.set (cellIndex n j y) (f j y)) (s := out)
    (fun k o => o.length = out.length
      ∧ ∀ j y, j < n → y < h → cellIndex n j y < k → o.getD (cellIndex n j y) 0#8 = f j y)
    ⟨rfl, fun _ _ _ _ before => absurd before (Nat.not_lt_zero _)⟩ ?turn
  · exact passed.2 j y hj hy (cellIndex_lt hj hy)
  case turn =>
    rintro j y o hj hy ⟨len, ih⟩
    refine ⟨List.length_set.trans len, fun j' y' hj' hy' before => ?_⟩
    have inside : cellIndex n j' y' < o.length := Nat.lt_of_lt_of_le (cellIndex_lt hj' hy') (len ▸ room)
    rw [getD_set_byte _ inside]
    split
    next same =>
      obtain ⟨rfl, rfl⟩ := (cellIndex_inj hj' hj).1 same
      rfl
    next other => exact ih j' y' hj' hy' (by omega)

/-! ## One bit for each pixel -/

/-- The turn of pixel `(x, y)` in the loop of the 1-bpp layouts: the pixels of a group stand eight to a byte, and each
group of `w` starts a new byte. -/
def fillBit (w : Nat) (px : Nat → Nat → Byte) (bit : Nat → Byte) (x y : Nat) (out : List Byte) : List Byte :=
  if px x y = 1#8 then orInto out (cellIndex (ceilDiv w 8) (x / 8) y) (bit (x % 8)) else out

/-- The loop of the 1-bpp layouts over `h` groups of `w` pixels. -/
def fillBits (w h : Nat) (px : Nat → Nat → Byte) (bit : Nat → Byte) (out : List Byte) : List Byte :=
  forCells w h (fillBit w px bit) out

theorem length_orInto (out : List Byte) (i : Nat) (bits : Byte) : (orInto out i bits).length = out.length :=
  List.length_set

theorem getD_orInto {out : List Byte} {i k : Nat} (bits : Byte) (hk : k < out.length) :
    (orInto out i bits).getD k 0#8 = if k = i then out.getD k 0#8 ||| bits else out.getD k 0#8 := by
  rw [orInto, getD_set_byte _ hk]
  split
  next same => rw [same]
  next => rfl

theorem length_fillBit (w : Nat) (px : Nat → Nat → Byte) (bit : Nat → Byte) (x y : Nat) (out : List Byte) :
    (fillBit w px bit x y out).length = out.length := by
  unfold fillBit
  split
  · exact length_orInto _ _ _
  · rfl

theorem length_fillBits (w h : Nat) (px : Nat → Nat → Byte) (bit : Nat → Byte) (out : List Byte) :
    (fillBits w h px bit out).length = out.length :=
  forCells_keeps (fun o : List Byte => o.length = out.length) rfl
    (fun x y o _ _ kept => (length_fillBit w px bit x y o).trans kept)

/-- The byte of a pixel of the group lies in the group's bytes. -/
theorem div_eight_lt {w x : Nat} (hx : x < w) : x / 8 < ceilDiv w 8 := by
  rw [ceilDiv_eight]
  omega

/-- One turn of the loop sets its own pixel's bit at most, when `bit off` is the byte with the one bit `place off`. -/
theorem getLsbD_fillBit {w h : Nat} {px : Nat → Nat → Byte} {bit : Nat → Byte} {place : Nat → Nat}
    (single : ∀ a b, a < 8 → b < 8 → (bit a).getLsbD (place b) = decide (a = b)) {o : List Byte}
    (room : ceilDiv w 8 * h ≤ o.length) {x y j y' off : Nat} (hx : x < w) (hj : j < ceilDiv w 8) (hy' : y' < h)
    (hoff : off < 8) :
    ((fillBit w px bit x y o).getD (cellIndex (ceilDiv w 8) j y') 0#8).getLsbD (place off) = true
      ↔ (o.getD (cellIndex (ceilDiv w 8) j y') 0#8).getLsbD (place off) = true
        ∨ (8 * j + off = x ∧ y' = y ∧ px x y = 1#8) := by
  by_cases lit : px x y = 1#8
  · have inside : cellIndex (ceilDiv w 8) j y' < o.length := Nat.lt_of_lt_of_le (cellIndex_lt hj hy') room
    rw [fillBit, if_pos lit, getD_orInto _ inside]
    by_cases here : cellIndex (ceilDiv w 8) j y' = cellIndex (ceilDiv w 8) (x / 8) y
    · obtain ⟨byte, row⟩ := (cellIndex_inj hj (div_eight_lt hx)).1 here
      rw [if_pos here, BitVec.getLsbD_or, single _ _ (Nat.mod_lt _ (by decide)) hoff, Bool.or_eq_true,
        decide_eq_true_eq]
      have same : x % 8 = off ↔ 8 * j + off = x := by omega
      simp only [same, row, lit, and_true]
    · have apart : ¬ (8 * j + off = x ∧ y' = y ∧ px x y = 1#8) := by
        rintro ⟨pixel, row, -⟩
        have byte : j = x / 8 := by omega
        exact here (by rw [byte, row])
      rw [if_neg here, or_iff_left apart]
  · rw [fillBit, if_neg lit, or_iff_left fun own => lit own.2.2]

/-- In an array of zeros each bit is set exactly by its own pixel, when `bit off` is the byte with the one bit
`place off`. -/
theorem getLsbD_fillBits {w h : Nat} {px : Nat → Nat → Byte} {bit : Nat → Byte} {place : Nat → Nat}
    (single : ∀ a b, a < 8 → b < 8 → (bit a).getLsbD (place b) = decide (a = b)) {len : Nat}
    (room : ceilDiv w 8 * h ≤ len) {j y off : Nat} (hj : j < ceilDiv w 8) (hy : y < h) (hoff : off < 8) :
    ((fillBits w h px bit (List.replicate len 0#8)).getD (cellIndex (ceilDiv w 8) j y) 0#8).getLsbD (place off) = true
      ↔ 8 * j + off < w ∧ px (8 * j + off) y = 1#8 := by
  have passed := forCells_induct (w := w) (h := h) (f := fillBit w px bit) (s := List.replicate len 0#8)
    (fun k o => o.length = len ∧ ∀ j y off, j < ceilDiv w 8 → y < h → off < 8 →
      ((o.getD (cellIndex (ceilDiv w 8) j y) 0#8).getLsbD (place off) = true
        ↔ cellIndex w (8 * j + off) y < k ∧ 8 * j + off < w ∧ px (8 * j + off) y = 1#8))
    ⟨List.length_replicate, fun j y off _ _ _ => ?start⟩ ?turn
  · rw [fillBits, passed.2 j y off hj hy hoff]
    exact and_iff_right_of_imp fun lit => cellIndex_lt lit.1 hy
  case start =>
    rw [List.getD_eq_getElem?_getD, List.getElem?_getD_replicate_default_eq, BitVec.getLsbD_zero]
    exact iff_of_false nofun fun before => Nat.not_lt_zero _ before.1
  case turn =>
    rintro x y o hx hy ⟨length, ih⟩
    refine ⟨(length_fillBit w px bit x y o).trans length, fun j' y' off' hj' hy' hoff' => ?_⟩
    rw [getLsbD_fillBit single (length ▸ room) hx hj' hy' hoff', ih j' y' off' hj' hy' hoff',
      Nat.lt_succ_iff_lt_or_eq]
    constructor
    · rintro (⟨before, own⟩ | ⟨rfl, rfl, lit⟩)
      · exact ⟨.inl before, own⟩
      · exact ⟨.inr rfl, hx, lit⟩
    · rintro ⟨before | now, inside, lit⟩
      · exact .inl ⟨before, inside, lit⟩
      · obtain ⟨rfl, rfl⟩ := (cellIndex_inj inside hx).1 now
        exact .inr ⟨rfl, rfl, lit⟩

/-! ## The four layouts (R107 to R110) -/

theorem pack4H_eq (L : Latch) (p : Memory) (out : List Byte) (even : L.pw % 2 = 0) :
    pack4H L p out = fillPairs (L.pw / 2) L.ph (fun j y => pairByte L.order (planeGet p L.pw (2 * j) y)
      (if 2 * j + 1 < L.pw then planeGet p L.pw (2 * j + 1) y else 0#8)) out := by
  have half : ceilDiv L.pw 2 = L.pw / 2 := by
    rw [ceilDiv_two]
    omega
  simp only [pack4H, half, Nat.mul_div_cancel_left _ Nat.two_pos]
  rfl

theorem pack4V_eq (L : Latch) (p : Memory) (out : List Byte) :
    pack4V L p out = fillPairs (ceilDiv L.ph 2) L.pw (fun j x => pairByte L.order (planeGet p L.pw x (2 * j))
      (if 2 * j + 1 < L.ph then planeGet p L.pw x (2 * j + 1) else 0#8)) out := by
  simp only [pack4V, Nat.mul_div_cancel_left _ Nat.two_pos]
  rfl

theorem pack1H_eq (L : Latch) (p : Memory) (out : List Byte) :
    pack1H L p out = fillBits L.w L.ph (fun x y => planeGet p L.pw x y) (horizontalBit L.order) out := rfl

theorem pack1V_eq (L : Latch) (p : Memory) (out : List Byte) :
    pack1V L p out = fillBits L.ph L.w (fun y x => planeGet p L.pw x y) (verticalBit L.order) out := rfl

/-- The bit of a horizontal byte that holds the pixel `off` places into its group (R109). -/
def horizontalPlace (o : PixelOrder) (off : Nat) : Nat :=
  match o with
  | .little => 7 - off
  | .big => off

/-- The bit of a vertical byte that holds the pixel `off` places into its group (R110). -/
def verticalPlace (o : PixelOrder) (off : Nat) : Nat :=
  match o with
  | .little => off
  | .big => 7 - off

/-- A byte with one bit set. -/
theorem getLsbD_one_shiftLeft {a b : Nat} (hb : b < 8) : (1#8 <<< a).getLsbD b = decide (a = b) := by
  rw [← BitVec.twoPow_eq, BitVec.getLsbD_twoPow]
  simpa using fun same : a = b => same.trans_lt hb

theorem getLsbD_horizontalBit (o : PixelOrder) (a b : Nat) (ha : a < 8) (hb : b < 8) :
    (horizontalBit o a).getLsbD (horizontalPlace o b) = decide (a = b) := by
  cases o with
  | little =>
    rw [horizontalBit, horizontalPlace, getLsbD_one_shiftLeft (by omega), decide_eq_decide]
    omega
  | big => exact getLsbD_one_shiftLeft hb

theorem getLsbD_verticalBit (o : PixelOrder) (a b : Nat) (ha : a < 8) (hb : b < 8) :
    (verticalBit o a).getLsbD (verticalPlace o b) = decide (a = b) := by
  cases o with
  | little => exact getLsbD_one_shiftLeft hb
  | big =>
    rw [verticalBit, verticalPlace, getLsbD_one_shiftLeft (by omega), decide_eq_decide]
    omega

/-! ## The packed bytes (R105, R111) -/

/-- Every layout fills the array it is given. -/
theorem length_layoutOf (ob : OutBpp) (sc : Scan) (L : Latch) (p : Memory) (out : List Byte) :
    (layoutOf ob sc L p out).length = out.length := by
  cases ob <;> cases sc
  case one.horizontal => exact length_fillBits _ _ _ _ _
  case one.vertical => exact length_fillBits _ _ _ _ _
  case four.horizontal => exact length_forCells_set (ceilDiv L.pw 2) L.ph _ _ out
  case four.vertical => exact length_forCells_set (ceilDiv L.ph 2) L.pw _ _ out

/-- No layout reads `L.INVERT`. -/
theorem layoutOf_invert (ob : OutBpp) (sc : Scan) (b : Bool) (L : Latch) (p : Memory) (out : List Byte) :
    layoutOf ob sc { L with invert := b } p out = layoutOf ob sc L p out := by
  cases ob <;> cases sc <;> rfl

theorem packedBytes_plain (layout : Latch → Memory → List Byte → List Byte) {L : Latch} (p : Memory)
    (plain : L.invert = false) : packedBytes layout L p = layout L p (List.replicate L.outLen.toNat 0#8) := by
  simp [packedBytes, plain]

/-- There are `L.OUT_LEN` packed bytes, complemented or not. -/
theorem length_packedBytes (ob : OutBpp) (sc : Scan) (L : Latch) (p : Memory) :
    (packedBytes (layoutOf ob sc) L p).length = L.outLen.toNat := by
  have filled : (layoutOf ob sc L p (List.replicate L.outLen.toNat 0#8)).length = L.outLen.toNat :=
    (length_layoutOf ob sc L p _).trans List.length_replicate
  cases inverted : L.invert with
  | false => rw [packedBytes_plain _ p inverted, filled]
  | true =>
    simp only [packedBytes, inverted, ↓reduceIte, List.length_map]
    exact filled

/-- With invert each packed byte is complemented, pads included (R111). -/
theorem getD_packedBytes_invert (ob : OutBpp) (sc : Scan) (L : Latch) (p : Memory) {i : Nat}
    (hi : i < L.outLen.toNat) :
    (packedBytes (layoutOf ob sc) { L with invert := true } p).getD i 0#8
      = (packedBytes (layoutOf ob sc) { L with invert := false } p).getD i 0#8 ^^^ 0xFF#8 := by
  have inside : i < (layoutOf ob sc L p (List.replicate L.outLen.toNat 0#8)).length := by
    rwa [length_layoutOf, List.length_replicate]
  simp only [packedBytes, layoutOf_invert, ↓reduceIte, Bool.false_eq_true]
  rw [List.getD_eq_getElem _ _ (by rwa [List.length_map]), List.getD_eq_getElem _ _ inside, List.getElem_map]

/-- The complement of a byte, as a number. -/
theorem toNat_xor_ones (v : Byte) : (v ^^^ 0xFF#8).toNat = 255 - v.toNat := by
  have complement : v ^^^ 0xFF#8 = ~~~v := BitVec.xor_allOnes
  rw [complement, BitVec.toNat_not]

theorem xor_ones_xor_ones (v : Byte) : (v ^^^ 0xFF#8) ^^^ 0xFF#8 = v := by
  rw [BitVec.xor_assoc, BitVec.xor_self, BitVec.xor_zero]

end Sys2Proof.Machine
end

section
/-! SUPPORT. The obligations about the packed bytes. -/

namespace Sys2Proof.Machine

/-- Settles O14: the four products with the quotients rounded up, and the bound by the cells of the plane. -/
theorem outLenCountsEveryLayout : Obligations.OutLenCountsEveryLayout := by
  intro cap L h
  have length := h.outLen
  refine ⟨h.outLen_le, fun four scan => ?_, fun four scan => ?_, fun one scan => ?_, fun one scan => ?_⟩
  · have half : L.pw / 2 = (L.w + 1) / 2 := by
      have even := h.pw_even four
      omega
    rw [length, four, scan, outLenOf, half]
  · rw [length, four, scan, outLenOf, ceilDiv_two]
  · rw [length, one, scan, outLenOf, ceilDiv_eight]
  · rw [length, one, scan, outLenOf, ceilDiv_eight]

/-- Settles O32: the layout gives each pair its byte, and an even plane has no half pair. -/
theorem pack4HBytes : Obligations.Pack4HBytes := by
  intro cap L p h four scan plain
  refine ⟨length_packedBytes _ _ L p, fun j y hj hy => ?_⟩
  have even := h.pw_even four
  have second : 2 * j + 1 < L.pw := by omega
  have room : L.pw / 2 * L.ph ≤ (List.replicate L.outLen.toNat 0#8).length := by
    rw [List.length_replicate, h.outLen, four, scan, outLenOf]
  rw [packedBytes_plain _ p plain, four, scan, layoutOf, pack4H_eq L p _ (by omega)]
  refine (getD_fillPairs _ room hj hy).trans ?_
  rw [if_pos second]
  rfl

/-- Settles O33: the layout gives each pair its byte, the last pair of an odd column included. -/
theorem pack4VBytes : Obligations.Pack4VBytes := by
  intro cap L p h four scan plain
  refine ⟨length_packedBytes _ _ L p, fun x j hx hj => ?_⟩
  have room : ceilDiv L.ph 2 * L.pw ≤ (List.replicate L.outLen.toNat 0#8).length := by
    rw [List.length_replicate, h.outLen, four, scan, outLenOf, Nat.mul_comm]
  rw [packedBytes_plain _ p plain, four, scan, layoutOf, pack4V_eq]
  exact getD_fillPairs _ room hj hx

/-- Settles O34: each bit is set by its own pixel. -/
theorem pack1HBits : Obligations.Pack1HBits := by
  intro cap L p h one scan plain
  refine ⟨length_packedBytes _ _ L p, fun j y off hj hy hoff => ?_⟩
  have room : ceilDiv L.w 8 * L.ph ≤ L.outLen.toNat := by rw [h.outLen, one, scan, outLenOf]
  rw [packedBytes_plain _ p plain, one, scan, layoutOf, pack1H_eq]
  exact getLsbD_fillBits (getLsbD_horizontalBit L.order) room hj hy hoff

/-- Settles O35: each bit is set by its own pixel, in columns. -/
theorem pack1VBits : Obligations.Pack1VBits := by
  intro cap L p h one scan plain
  refine ⟨length_packedBytes _ _ L p, fun x j off hx hj hoff => ?_⟩
  have room : ceilDiv L.ph 8 * L.w ≤ L.outLen.toNat := by rw [h.outLen, one, scan, outLenOf, Nat.mul_comm]
  rw [packedBytes_plain _ p plain, one, scan, layoutOf, pack1V_eq]
  exact getLsbD_fillBits (getLsbD_verticalBit L.order) room hj hx hoff

/-- Settles O36: the two arrays are filled alike, and the complement of a byte is 255 less the byte. -/
theorem invertComplementsEveryByte : Obligations.InvertComplementsEveryByte := by
  intro ob sc L p i hi
  dsimp only
  rw [getD_packedBytes_invert ob sc L p hi]
  generalize (packedBytes (layoutOf ob sc) { L with invert := false } p).getD i 0#8 = plain
  have byte := plain.isLt
  rw [toNat_xor_ones]
  exact ⟨rfl, xor_ones_xor_ones plain, by omega, by omega⟩

end Sys2Proof.Machine
end

section
/-! SUPPORT. The ends of PACK by its destination writes, and CONVERT up to PACK's stage (R105, R106, R112). -/

namespace Sys2Proof.Machine

/-! ## The destination writes -/

/-- The writes all return `OK` exactly where the destination is writable throughout. -/
theorem destOK_iff_destWritable (s : State) : destOK s = true ↔ DestWritable s.platform s.latch := destOK_iff s

/-- A destination byte that the host has not written ends as the packed byte. -/
theorem destByte_untouched {s : State} {out : List Byte} {i : Nat}
    (h : s.touched.contains (portAddress (destAddress s.latch i)) = false) : destByte s out i = out.getD i 0#8 := by
  simp only [destByte, h, Bool.false_eq_true, ↓reduceIte]

/-- Every destination byte ends as the packed byte or as the host's value (R54). -/
theorem destByte_cases (s : State) (out : List Byte) (i : Nat) :
    destByte s out i = out.getD i 0#8
      ∨ destByte s out i = Memory.read s.mem (portAddress (destAddress s.latch i)) := by
  unfold destByte
  split
  · split
    · exact .inl rfl
    · exact .inr rfl
  · exact .inl rfl

/-- PACK's stage into a clear and writable destination: the packed bytes stored and the plane released (R105). -/
theorem packBody_writable {s : State} (clear : DestClear s.platform s.latch)
    (writable : DestWritable s.platform s.latch) :
    packBody s = .going { s with
      mem := storeDest s.latch
        (destByte s (packedBytes (layoutOf s.latch.outBpp s.latch.scan) s.latch s.plane)) s.mem
      status := { s.status with pk := .empty }
      freeCount := s.freeCount + s.latch.outLen.toNat } := by
  rw [packBody_eq, packWith]
  rcases writePacked_cases (packedBytes (layoutOf s.latch.outBpp s.latch.scan) s.latch s.plane) s with
    ⟨-, overlaps⟩ | ⟨-, failed, -⟩ | ⟨going, -, -⟩
  · exact absurd (overlaps.symm.trans clear) nofun
  · exact absurd (failed.symm.trans ((destOK_iff_destWritable s).2 writable)) nofun
  · exact going

/-- PACK's stage into a clear destination that cannot be written throughout: `BUS_WRITE`, the bytes of the destination
free (R106, R117). -/
theorem packBody_unwritable {s : State} (clear : DestClear s.platform s.latch)
    (unwritable : ¬ DestWritable s.platform s.latch) :
    packBody s = .raised .busWrite { s with
      mem := storeDest s.latch (fun i => Config.freeByte (s.freeCount + i)) s.mem
      freeCount := s.freeCount + s.latch.outLen.toNat } := by
  rw [packBody_eq, packWith]
  rcases writePacked_cases (packedBytes (layoutOf s.latch.outBpp s.latch.scan) s.latch s.plane) s with
    ⟨-, overlaps⟩ | ⟨raised, -, -⟩ | ⟨-, ok, -⟩
  · exact absurd (overlaps.symm.trans clear) nofun
  · exact raised
  · exact absurd ((destOK_iff_destWritable s).1 ok) unwritable

/-- A PACK row that finds levels runs PACK's stage (R68, R76). -/
theorem exec_pack_met {s : State} {i : Instr} (row : i.core = .pack)
    (levels : s.status.pk = .level1 ∨ s.status.pk = .level4) : exec i s = (packBody s).outcome := by
  rw [exec_of_core_pack row, execPack, requireLevels_met levels, andThen_going]

/-! ## CONVERT up to PACK's stage -/

/-- What REDUCE's loops leave where every source byte has been read (R85). -/
def reducedState (s : State) : State :=
  { withReducedPlane (reducedPlane s).1 s with status := { s.status with pk := .luma8 } }

/-- The state that CONVERT's stages hand to PACK's, from the latched state, where every source byte has been read
(R112). -/
def levelState (s : State) : State := quantizeBody (oneBppStages (reducedState s))

/-- The 1-bpp stages change the plane at most. -/
theorem oneBppStages_eq (s : State) : oneBppStages s = { s with plane := (oneBppStages s).plane } := by
  unfold oneBppStages
  cases s.latch.outBpp with
  | four => rfl
  | one =>
    by_cases method : s.latch.dither = .none
    · simp only [method, ↓reduceIte]
      rfl
    · simp only [method, ↓reduceIte]
      exact ditherBody_eq (adjustBody s)

/-- The stages before PACK's change the plane, `PK` and the model's counter at most. -/
theorem levelState_eq (s : State) : levelState s = { s with
    plane := (levelState s).plane
    status := (levelState s).status
    freeCount := s.freeCount + s.latch.pw * s.latch.ph } := by
  unfold levelState
  rw [quantizeBody_eq, oneBppStages_eq]
  rfl

/-- They leave the plane's kind of the latched depth. -/
theorem levelState_status (s : State) : (levelState s).status =
    { s.status with pk := match s.latch.outBpp with | .one => .level1 | .four => .level4 } := by
  rw [levelState, quantizeBody_status, oneBppStages_status, oneBppStages_latch]
  rfl

/-- A source that can be read throughout fails no turn of REDUCE's loops. -/
theorem reduceBody_readable {s : State} (canonical : Memory.wf s.plane = true) (hph : s.latch.ph = s.latch.h)
    (clear : SourceClear s.platform s.latch) (readable : SourceReadable s.platform s.latch) :
    reduceBody s = .going (reducedState s) := by
  obtain ⟨read, -⟩ := reducedPlane_ok canonical (cellValue s)
    fun x y _ hy => reducedCell_readable readable (hph ▸ hy)
  exact reduceBody_of_read clear read

/-- CONVERT whose checks pass, with both regions clear and a readable source, comes to PACK's stage (R112). -/
theorem execConvert_readable {s : State} {L : Latch} (hL : ChecksPass s L) (readable : SourceReadable s.platform L)
    (sourceClear : SourceClear s.platform L) (destClear : DestClear s.platform L)
    (canonical : Memory.wf s.plane = true) :
    execConvert s = (packBody (levelState (writeLatch L s))).outcome := by
  have reduced : reduceBody (writeLatch L s) = .going (reducedState (writeLatch L s)) :=
    reduceBody_readable canonical (ph_of_checksPass hL) sourceClear readable
  rw [execConvert, startConversion_clear hL destClear, andThen_going, reduced, thenDo_going, thenDo_going,
    andThen_going, levelState]

end Sys2Proof.Machine
end

section
/-! SUPPORT. The obligations about PACK's destination writes. -/

namespace Sys2Proof.Machine

/-- Settles O30: the packed bytes stored one by one, each unless the host has written it, and `finish`. -/
theorem packCompletes : Obligations.PackCompletes := by
  intro s i row levels clear writable canonical
  have core : i.core = .pack := by rcases row with rfl | rfl | rfl | rfl | rfl <;> rfl
  obtain ⟨-, stored, outside⟩ := storeDest_spec s.latch
    (destByte s (packedBytes (layoutOf s.latch.outBpp s.latch.scan) s.latch s.plane)) canonical
  refine ⟨_, s.freeCount + s.latch.outLen.toNat, ?_, fun k hk untouched => ?_, fun k hk _ => ?_, outside⟩
  · rw [exec_pack_met core levels, packBody_writable clear writable, outcome_going]
    rfl
  · rw [stored k hk, destByte_untouched untouched]
  · rw [stored k hk]
    exact destByte_cases s _ k

/-- Settles O31: PACK's stage raises `BUS_WRITE` and stores its free bytes in the destination only, alone and at the end
of CONVERT. -/
theorem packBusWriteConfined : Obligations.PackBusWriteConfined := by
  refine ⟨fun s i core levels clear unwritable canonical => ?_,
    fun s L hL readable sourceClear destClear unwritable canonicalPlane canonical => ?_⟩
  · obtain ⟨-, -, outside⟩ := storeDest_spec s.latch (fun i => Config.freeByte (s.freeCount + i)) canonical
    refine ⟨_, s.freeCount + s.latch.outLen.toNat, ?_, outside⟩
    rw [exec_pack_met core levels, packBody_unwritable clear unwritable, outcome_raised]
    rfl
  · obtain ⟨-, -, outside⟩ := storeDest_spec L
      (fun i => Config.freeByte (s.freeCount + L.pw * L.ph + i)) canonical
    refine ⟨(levelState (writeLatch L s)).plane, _, s.freeCount + L.pw * L.ph + L.outLen.toNat, ?_, outside⟩
    show execConvert s = _
    rw [execConvert_readable hL readable sourceClear destClear canonicalPlane, levelState_eq,
      packBody_unwritable destClear unwritable, outcome_raised, levelState_status]
    rfl

end Sys2Proof.Machine
end

section
/-! SUPPORT. The plane that CONVERT hands to PACK's stage, as a grid of integers: the source's pixels through the stages
of the latched depth and method (R90, R95, R97, R102, R103, R112). -/

namespace Sys2Proof.Machine

/-! ## The stages on grids -/

/-- A cell-by-cell change of a canonical plane holds the grid of the changed cells. -/
theorem holdsGrid_planeMap {w h : Nat} {p : Memory} {g : Grid} {f : Nat → Nat → Byte → Byte}
    (canonical : Memory.wf p = true)
    (changed : ∀ x y, x < w → y < h → ((f x y (planeGet p w x y)).toNat : Int) = g x y) :
    HoldsGrid w h (planeMap w h f p) g := by
  obtain ⟨kept, cells, -⟩ := planeMap_spec w h f canonical
  exact ⟨kept, fun x y hx hy => by rw [gridOf, cells x y hx hy, changed x y hx hy]⟩

/-- The grid of a plane of bytes. -/
def byteGrid (v : Nat → Nat → Byte) : Grid := fun x y => ((v x y).toNat : Int)

/-- A plane that holds the grid of some bytes has those bytes as its cells. -/
theorem HoldsGrid.planeGet_eq {w h x y : Nat} {p : Memory} {v : Nat → Nat → Byte} (hp : HoldsGrid w h p (byteGrid v))
    (hx : x < w) (hy : y < h) : planeGet p w x y = v x y :=
  BitVec.eq_of_toNat_eq (Int.ofNat_inj.1 (hp.cells x y hx hy))

/-- Two planes that hold the same grid have the same cells. -/
theorem HoldsGrid.same_cells {w h : Nat} {p q : Memory} {g : Grid} (hp : HoldsGrid w h p g) (hq : HoldsGrid w h q g) :
    ∀ x y, x < w → y < h → planeGet p w x y = planeGet q w x y := fun x y hx hy =>
  BitVec.eq_of_toNat_eq (Int.ofNat_inj.1 ((hp.cells x y hx hy).trans (hq.cells x y hx hy).symm))

/-- The grid after ADJUST, of the bytes before it (R90). -/
def adjustedGrid (L : Latch) (v : Nat → Nat → Byte) : Grid := fun x y => adjusted (v x y).toNat L.b L.c

/-- The grid after the latched method, of the grid before it (R94, R95, R97). -/
def ditheredGrid (pf : Platform) (L : Latch) (g : Grid) : Grid :=
  match L.dither with
  | .none => g
  | .floyd => gridFloyd L.pw L.ph g
  | .ordered => fun x y => if (bayerAt pf x y : Int) < g x y then 255 else 0

/-- The level of the 1-bpp depth, in integers (R102). -/
def thresholdLevel (v : Int) : Int := if 127 < v then 1 else 0

/-- The grid of levels that CONVERT leaves, of the bytes that REDUCE's loops leave (R102, R103, R112). -/
def levelGrid (pf : Platform) (L : Latch) (v : Nat → Nat → Byte) : Grid := fun x y =>
  match L.outBpp with
  | .four => ((v x y).toNat : Int) / 16
  | .one => thresholdLevel (ditheredGrid pf L (adjustedGrid L v) x y)

theorem holdsGrid_adjustBody {s : State} {v : Nat → Nat → Byte}
    (hp : HoldsGrid s.latch.pw s.latch.ph s.plane (byteGrid v)) :
    HoldsGrid s.latch.pw s.latch.ph (adjustBody s).plane (adjustedGrid s.latch v) := by
  rw [adjustBody_plane]
  refine holdsGrid_planeMap hp.canonical fun x y hx hy => ?_
  rw [hp.planeGet_eq hx hy, adjustValue_toNat, adjustedGrid]

theorem orderedValue_toNat (pf : Platform) (x y : Nat) (v : Byte) :
    ((orderedValue pf x y v).toNat : Int) = if (bayerAt pf x y : Int) < v.toNat then 255 else 0 := by
  simp only [orderedValue, Int.ofNat_lt]
  split <;> rfl

theorem holdsGrid_ditherBody {s : State} {g : Grid} (hp : HoldsGrid s.latch.pw s.latch.ph s.plane g) :
    HoldsGrid s.latch.pw s.latch.ph (ditherBody s).plane (ditheredGrid s.platform s.latch g) := by
  rw [ditherBody_plane, ditheredGrid]
  cases s.latch.dither with
  | none => exact hp
  | floyd => exact hp.floydSteinberg
  | ordered =>
    refine holdsGrid_planeMap hp.canonical fun x y hx hy => ?_
    have cell : ((planeGet s.plane s.latch.pw x y).toNat : Int) = g x y := hp.cells x y hx hy
    rw [orderedValue_toNat, cell]

/-- The threshold of the 1-bpp depth (R102). -/
theorem holdsGrid_quantizeBody_one {s : State} {L : Latch} {g : Grid} (latch : s.latch = L) (one : L.outBpp = .one)
    (hp : HoldsGrid L.pw L.ph s.plane g) :
    HoldsGrid L.pw L.ph (quantizeBody s).plane (fun x y => thresholdLevel (g x y)) := by
  rw [quantizeBody_planeMap, latch, one]
  refine holdsGrid_planeMap hp.canonical fun x y hx hy => ?_
  rw [← hp.cells x y hx hy, quantizeValue_one_toNat, gridOf, thresholdLevel, Nat.cast_ite]
  exact if_congr (by omega) rfl rfl

/-- The scale of the 4-bpp depth (R103). -/
theorem holdsGrid_quantizeBody_four {s : State} {L : Latch} {v : Nat → Nat → Byte} (latch : s.latch = L)
    (four : L.outBpp = .four) (hp : HoldsGrid L.pw L.ph s.plane (byteGrid v)) :
    HoldsGrid L.pw L.ph (quantizeBody s).plane (fun x y => ((v x y).toNat : Int) / 16) := by
  rw [quantizeBody_planeMap, latch, four]
  refine holdsGrid_planeMap hp.canonical fun x y hx hy => ?_
  rw [hp.planeGet_eq hx hy, quantizeValue_four_toNat]
  rfl

/-! ## The plane of CONVERT -/

/-- At 1 bpp the stages between REDUCE's and QUANTIZE's are ADJUST's and DITHER's, whose method none does nothing
(R94, R112). -/
theorem oneBppStages_of_one {s : State} (one : s.latch.outBpp = .one) :
    oneBppStages s = ditherBody (adjustBody s) := by
  simp only [oneBppStages, one]
  split
  next none => rw [ditherBody, adjustBody_latch, none, ditherNoneBody]
  next => rfl

/-- A source that can be read throughout leaves its own cells in the plane (R85). -/
theorem holdsGrid_reducedState {s : State} (canonical : Memory.wf s.plane = true) (hph : s.latch.ph = s.latch.h)
    (readable : SourceReadable s.platform s.latch) :
    HoldsGrid s.latch.pw s.latch.ph (reducedState s).plane (byteGrid (cellValue s)) := by
  obtain ⟨-, kept, cells, -⟩ := reducedPlane_ok canonical (cellValue s)
    fun x y _ hy => reducedCell_readable readable (hph ▸ hy)
  exact ⟨kept, fun x y hx hy => congrArg (fun b : Byte => (b.toNat : Int)) (cells x y hx hy)⟩

/-- The plane that PACK's stage finds holds the levels of the source's cells, whatever plane was there before (R112). -/
theorem holdsGrid_levelState {s : State} (canonical : Memory.wf s.plane = true) (hph : s.latch.ph = s.latch.h)
    (readable : SourceReadable s.platform s.latch) :
    HoldsGrid s.latch.pw s.latch.ph (levelState s).plane (levelGrid s.platform s.latch (cellValue s)) := by
  have reduced := holdsGrid_reducedState canonical hph readable
  unfold levelState levelGrid
  cases depth : s.latch.outBpp with
  | four =>
    rw [oneBppStages_of_four (s := reducedState s) depth]
    exact holdsGrid_quantizeBody_four rfl depth reduced
  | one =>
    have dithered := holdsGrid_ditherBody (s := adjustBody (reducedState s))
      (holdsGrid_adjustBody (s := reducedState s) reduced)
    rw [oneBppStages_of_one (s := reducedState s) depth]
    exact holdsGrid_quantizeBody_one (ditherBody_latch _) depth dithered

end Sys2Proof.Machine
end

section
/-! SUPPORT. The bytes that PACK's stage stores, and the plane that CONVERT finds (R54, R76, R105, R112). -/

namespace Sys2Proof.Machine

/-! ## PACK's stage -/

/-- PACK's stage into a clear and writable destination: which byte stands where afterwards (R45, R54, R105). -/
theorem packBody_stores {s : State} (clear : DestClear s.platform s.latch) (writable : DestWritable s.platform s.latch)
    (canonical : Memory.wf s.mem = true) : ∃ (m : Memory) (n : Nat),
      packBody s = .going { s with mem := m, status := { s.status with pk := .empty }, freeCount := n }
      ∧ (∀ k, k < s.latch.outLen.toNat → s.touched.contains (portAddress (destAddress s.latch k)) = false →
          Memory.read m (portAddress (destAddress s.latch k))
            = (packedBytes (layoutOf s.latch.outBpp s.latch.scan) s.latch s.plane).getD k 0#8)
      ∧ (∀ k, k < s.latch.outLen.toNat →
          Memory.read m (portAddress (destAddress s.latch k))
              = (packedBytes (layoutOf s.latch.outBpp s.latch.scan) s.latch s.plane).getD k 0#8
            ∨ Memory.read m (portAddress (destAddress s.latch k))
              = Memory.read s.mem (portAddress (destAddress s.latch k)))
      ∧ (∀ a, OutsideDest s.latch a → Memory.read m a = Memory.read s.mem a) := by
  obtain ⟨-, stored, outside⟩ := storeDest_spec s.latch
    (destByte s (packedBytes (layoutOf s.latch.outBpp s.latch.scan) s.latch s.plane)) canonical
  refine ⟨_, _, packBody_writable clear writable, fun k hk untouched => ?_, fun k hk => ?_, outside⟩
  · rw [stored k hk, destByte_untouched untouched]
  · rw [stored k hk]
    exact destByte_cases s _ k

@[simp] theorem levelState_latch (s : State) : (levelState s).latch = s.latch := by rw [levelState_eq]
@[simp] theorem levelState_mem (s : State) : (levelState s).mem = s.mem := by rw [levelState_eq]
@[simp] theorem levelState_platform (s : State) : (levelState s).platform = s.platform := by rw [levelState_eq]
@[simp] theorem levelState_touched (s : State) : (levelState s).touched = s.touched := by rw [levelState_eq]

/-- Planes with the same cells inside `L.PW × L.PH` are packed into the same bytes: no layout reads another place of the
buffer (R107 to R110). -/
theorem packedBytes_congr (ob : OutBpp) (sc : Scan) {L : Latch} {p q : Memory} (hw : L.w ≤ L.pw)
    (same : ∀ x y, x < L.pw → y < L.ph → planeGet p L.pw x y = planeGet q L.pw x y) :
    packedBytes (layoutOf ob sc) L p = packedBytes (layoutOf ob sc) L q := by
  have layout : ∀ out, layoutOf ob sc L p out = layoutOf ob sc L q out := by
    intro out
    cases ob <;> cases sc
    case four.horizontal =>
      refine forRange_congr _ fun y o hy => forRange_congr _ fun j o hj => ?_
      rw [ceilDiv_two] at hj
      have second : (if 2 * j + 1 < L.pw then planeGet p L.pw (2 * j + 1) y else 0#8)
          = if 2 * j + 1 < L.pw then planeGet q L.pw (2 * j + 1) y else 0#8 :=
        ite_congr rfl (fun inside => same _ _ inside hy) fun _ => rfl
      rw [same _ _ (by omega) hy, second]
    case four.vertical =>
      refine forRange_congr _ fun x o hx => forRange_congr _ fun j o hj => ?_
      rw [ceilDiv_two] at hj
      have second : (if 2 * j + 1 < L.ph then planeGet p L.pw x (2 * j + 1) else 0#8)
          = if 2 * j + 1 < L.ph then planeGet q L.pw x (2 * j + 1) else 0#8 :=
        ite_congr rfl (fun inside => same _ _ hx inside) fun _ => rfl
      rw [same _ _ hx (by omega), second]
    case one.horizontal =>
      refine forRange_congr _ fun y o hy => forRange_congr _ fun x o hx => ?_
      rw [same _ _ (hx.trans_le hw) hy]
    case one.vertical =>
      refine forRange_congr _ fun x o hx => forRange_congr _ fun y o hy => ?_
      rw [same _ _ (hx.trans_le hw) hy]
  unfold packedBytes
  rw [layout]

/-- The state with another plane in the plane buffer. -/
def withPlane (q : Memory) (s : State) : State := { s with plane := q }

theorem requireDestClear_withPlane (q : Memory) : BlindTo (withPlane q) requireDestClear := by
  intro s
  simp only [requireDestClear, mapState_ite]
  rfl

theorem writeDest_withPlane (q : Memory) (out : List Byte) : BlindTo (withPlane q) (writeDest out) := by
  intro s
  simp only [writeDest, mapState_ite]
  rfl

/-- PACK's stage reads of the plane its packed bytes only. -/
theorem packBody_withPlane {s : State} {q : Memory}
    (bytes : packedBytes (layoutOf s.latch.outBpp s.latch.scan) s.latch q
      = packedBytes (layoutOf s.latch.outBpp s.latch.scan) s.latch s.plane) :
    packBody (withPlane q s) = (packBody s).mapState (withPlane q) := by
  have written := (requireDestClear_withPlane q).andThen (writeDest_withPlane q
    (packedBytes (layoutOf s.latch.outBpp s.latch.scan) s.latch s.plane)) s
  rw [packBody_eq, packWith, packBody_eq, packWith]
  exact (congrArg (writePacked · _) bytes).trans written

/-! ## What CONVERT finds in the plane buffer -/

theorem outcome_withPlane (q : Memory) (r : Progress) :
    (r.mapState (withPlane q)).outcome = mapNext (withPlane q) r.outcome := by
  cases r <;> rfl

/-- The state with another plane and another plane kind. -/
def withFound (p : Memory) (k : PlaneKind) (s : State) : State :=
  { s with plane := p, status := { s.status with pk := k } }

/-- From any two planes and plane kinds CONVERT's stages come to PACK's with states that differ in the plane only. -/
theorem levelState_withFound (p : Memory) (k : PlaneKind) (s : State) :
    levelState (withFound p k s) = withPlane (levelState (withFound p k s)).plane (levelState s) := by
  rw [levelState_eq s, levelState_eq (withFound p k s), levelState_status, levelState_status]
  rfl

/-- CONVERT that cannot read a source byte ends with `BUS_READ` where both regions are clear (R117). -/
theorem execConvert_unreadable {s : State} {L : Latch} (hL : ChecksPass s L) (sourceClear : SourceClear s.platform L)
    (destClear : DestClear s.platform L) (unreadable : ¬ SourceReadable s.platform L) :
    execConvert s
      = .next (raiseError .busRead (withReducedPlane (reducedPlane (writeLatch L s)).1 (writeLatch L s))) := by
  have raised := reduceBody_unreadable (s := writeLatch L s) (le_pw_of_checksPass hL) (ph_of_checksPass hL)
    sourceClear unreadable
  rw [execConvert, startConversion_clear hL destClear, andThen_going, raised, thenDo_raised, thenDo_raised,
    andThen_raised, outcome_raised]

/-- With another plane and another plane kind CONVERT ends alike but for the plane it leaves (R76, R112). -/
theorem execConvert_withFound {s : State} {L : Latch} {p : Memory} (k : PlaneKind) (hL : ChecksPass s L)
    (canonical : Memory.wf s.plane = true) (canonical' : Memory.wf p = true) :
    ∃ q, execConvert (withFound p k s) = mapNext (withPlane q) (execConvert s) := by
  have hL' : ChecksPass (withFound p k s) L := hL
  by_cases clear : SourceClear s.platform L ∧ DestClear s.platform L
  · obtain ⟨sourceClear, destClear⟩ := clear
    by_cases readable : SourceReadable s.platform L
    · have levels := holdsGrid_levelState (s := writeLatch L s) canonical (ph_of_checksPass hL) readable
      have levels' := holdsGrid_levelState (s := writeLatch L (withFound p k s)) canonical' (ph_of_checksPass hL)
        readable
      have bytes := packedBytes_congr L.outBpp L.scan (le_pw_of_checksPass hL) (levels'.same_cells levels)
      refine ⟨(levelState (writeLatch L (withFound p k s))).plane, ?_⟩
      rw [execConvert_readable hL readable sourceClear destClear canonical,
        execConvert_readable hL' readable sourceClear destClear canonical', ← outcome_withPlane,
        ← packBody_withPlane (by rw [levelState_latch]; exact bytes)]
      exact congrArg (fun t => (packBody t).outcome) (levelState_withFound p k (writeLatch L s))
    · refine ⟨(reducedPlane (writeLatch L (withFound p k s))).1, ?_⟩
      rw [execConvert_unreadable hL sourceClear destClear readable,
        execConvert_unreadable hL' sourceClear destClear readable]
      rfl
  · refine ⟨p, ?_⟩
    rw [execConvert_stops hL (not_and_or.1 clear), execConvert_stops hL' (not_and_or.1 clear)]
    rfl

end Sys2Proof.Machine
end

section
/-! SUPPORT. The obligations about CONVERT's result. -/

namespace Sys2Proof.Machine

/-- The two values of the ordered method lie on the two sides of the threshold. -/
theorem thresholdLevel_ite (c : Prop) [Decidable c] : thresholdLevel (if c then 255 else 0) = if c then 1 else 0 :=
  apply_ite thresholdLevel c 255 0

/-- Settles O37: the plane that comes to PACK's stage holds the levels of the source's cells, and that stage stores its
packed bytes. -/
theorem convertCompletes : Obligations.ConvertCompletes := by
  intro s L hL readable sourceClear writable destClear canonicalPlane canonical
  have levels := holdsGrid_levelState (s := writeLatch L s) canonicalPlane (ph_of_checksPass hL) readable
  obtain ⟨m, n, packed, stored, either, outside⟩ := packBody_stores (s := levelState (writeLatch L s))
    (by simpa using destClear) (by simpa using writable) (by simpa using canonical)
  simp only [levelState_latch, levelState_mem, levelState_touched] at stored either outside
  refine ⟨cellValue (writeLatch L s), (levelState (writeLatch L s)).plane, m, n, ?_, fun x y hx _ untouched => ?_,
    fun x y hpad _ _ => cellValue_pad (s := writeLatch L s) hpad, fun x y hx hy => ?_, stored,
    fun k hk _ => either k hk, outside⟩
  · show execConvert s = _
    rw [execConvert_readable hL readable sourceClear destClear canonicalPlane, packed, outcome_going, levelState_eq,
      levelState_status]
    rfl
  · exact cellValue_untouched (s := writeLatch L s) hx untouched
  · refine (levels.cells x y hx hy).trans ?_
    simp only [levelGrid, ditheredGrid, writeLatch_latch, writeLatch_platform]
    cases L.outBpp with
    | four => rfl
    | one =>
      cases L.dither with
      | none => rfl
      | floyd => rfl
      | ordered => exact thresholdLevel_ite _

/-- Settles O40: the two runs answer states that differ in the plane only. -/
theorem convertDiscardsOldPlane : Obligations.ConvertDiscardsOldPlane := by
  intro s t u L p k hL canonical canonical' ht hu
  obtain ⟨q, ends⟩ := execConvert_withFound k hL canonical canonical'
  obtain rfl : withPlane q t = u := by
    have run : execConvert s = .next t := ht
    rw [run] at ends
    exact Host.Outcome.next.inj (ends.symm.trans hu)
  exact ⟨rfl, rfl, rfl, rfl, rfl⟩

end Sys2Proof.Machine
end

section
/-! SUPPORT. Commands that the host issues one after another (R72, R113): what the end of one command and the acceptance
of the next change between their stages, and a sequence of commands as one run of all their stages. -/

namespace Sys2Proof.Machine

/-! ## Between two commands -/

/-- The state of a running command with another pending word and another `DONE`: all that sets the stages of an issued
command apart from the same stages inside another command. -/
def reissued (w : Word) (d : Bool) (s : State) : State := { s with pend := w, status := { s.status with done := d } }

@[simp] theorem reissued_latch (w : Word) (d : Bool) (s : State) : (reissued w d s).latch = s.latch := rfl

/-- What the acceptance of a command sets up, and its stages keep (R72, R54). -/
structure Accepted (s : State) : Prop where
  busy : s.status.busy = true
  snap : s.snap = s.regs
  touched : s.touched = []

theorem accepted_acceptCommand (w : Word) (s : State) : Accepted (acceptCommand w s) := ⟨rfl, rfl, rfl⟩

theorem Accepted.of_frame {s t : State} (h : Accepted s) (frame : StageFrame s t) : Accepted t where
  busy := by rw [frame.status]; exact h.busy
  snap := by rw [frame.snap, frame.regs, h.snap]
  touched := by rw [frame.touched, h.touched]

/-- The end of a command and the acceptance of the next change `PEND` and `DONE` only: the registers have not been
written in between. -/
theorem acceptCommand_finish {s : State} (h : Accepted s) (w v : Word) (d : Bool) :
    acceptCommand w (finish (reissued v d s)) = reissued w true s := by
  simp only [acceptCommand, finish, reissued, h.busy, h.snap, h.touched]

/-! ## No stage reads `PEND` or `DONE` -/

section Reissued

variable (w : Word) (d : Bool)

theorem checkAndLatch_reissued : BlindTo (reissued w d) checkAndLatch := by
  intro s
  cases h : latchOf s.platform.planeCapacity s.snap with
  | error e => rw [checkAndLatch_error h, checkAndLatch_error (s := reissued w d s) h]; rfl
  | ok L => rw [checkAndLatch_ok h, checkAndLatch_ok (s := reissued w d s) h]; rfl

theorem requireSourceClear_reissued : BlindTo (reissued w d) requireSourceClear := by
  intro s
  simp only [requireSourceClear, mapState_ite]
  rfl

theorem requireDestClear_reissued : BlindTo (reissued w d) requireDestClear := by
  intro s
  simp only [requireDestClear, mapState_ite]
  rfl

theorem requireLumaForOneBpp_reissued : BlindTo (reissued w d) requireLumaForOneBpp := by
  intro s
  simp only [requireLumaForOneBpp, mapState_ite]
  rfl

theorem requireLuma_reissued : BlindTo (reissued w d) requireLuma := by
  intro s
  simp only [requireLuma, mapState_ite]
  rfl

theorem requireLevels_reissued : BlindTo (reissued w d) requireLevels := by
  intro s
  simp only [requireLevels, mapState_ite]
  rfl

theorem fillPlane_reissued : BlindTo (reissued w d) fillPlane := by
  intro s
  simp only [fillPlane, mapState_ite]
  rfl

theorem writeDest_reissued (out : List Byte) : BlindTo (reissued w d) (writeDest out) := by
  intro s
  simp only [writeDest, mapState_ite]
  rfl

theorem ditherBody_reissued (s : State) : ditherBody (reissued w d s) = reissued w d (ditherBody s) := by
  simp only [ditherBody, reissued_latch]
  cases s.latch.dither <;> rfl

theorem quantizeBody_reissued (s : State) : quantizeBody (reissued w d s) = reissued w d (quantizeBody s) := by
  simp only [quantizeBody, reissued_latch]
  cases s.latch.outBpp <;> rfl

theorem packBody_reissued : BlindTo (reissued w d) packBody := fun s =>
  (requireDestClear_reissued w d).andThen
    (writeDest_reissued w d (packedBytes (layoutOf s.latch.outBpp s.latch.scan) s.latch s.plane)) s

end Reissued

/-! ## The stages of a command -/

/-- The command `i` runs the stages `f`, which stay inside their frame and do not know which command was issued. -/
structure RunsStages (i : Instr) (f : State → Progress) : Prop where
  nonzero : encode i ≠ 0x00000000#32
  meaning : ∀ s, exec i s = (f s).outcome
  frame : ∀ s, (f s).Holds (StageFrame s)
  blind : ∀ w d, BlindTo (reissued w d) f

/-- The stages of ADJUST (R92). -/
def adjustStages (s : State) : Progress := (requireLumaForOneBpp s).thenDo adjustBody

/-- The stages of DITHER (R93). -/
def ditherStages (s : State) : Progress := (requireLumaForOneBpp s).thenDo ditherBody

/-- The stages of QUANTIZE (R101). -/
def quantizeStages (s : State) : Progress := (requireLuma s).thenDo quantizeBody

/-- The stages of PACK (R105). -/
def packStages (s : State) : Progress := (requireLevels s).andThen packBody

theorem reduce_runsStages : RunsStages .reduce reduceStages where
  nonzero := by decide
  meaning := execReduce_eq
  frame := reduceStages_frame
  blind w d := (checkAndLatch_reissued w d).andThen
    ((requireSourceClear_reissued w d).andThen (fillPlane_reissued w d))

theorem adjust_runsStages : RunsStages .adjust adjustStages where
  nonzero := by decide
  meaning _ := rfl
  frame s := thenDo_frame (require_holds (.refl s)).1 stageFrame_adjustBody
  blind w d := (requireLumaForOneBpp_reissued w d).thenDo fun _ => rfl

theorem dither_runsStages : RunsStages .dither ditherStages where
  nonzero := by decide
  meaning _ := rfl
  frame s := thenDo_frame (require_holds (.refl s)).1 stageFrame_ditherBody
  blind w d := (requireLumaForOneBpp_reissued w d).thenDo (ditherBody_reissued w d)

theorem quantize_runsStages : RunsStages .quantize quantizeStages where
  nonzero := by decide
  meaning _ := rfl
  frame s := thenDo_frame (require_holds (.refl s)).2.1 stageFrame_quantizeBody
  blind w d := (requireLuma_reissued w d).thenDo (quantizeBody_reissued w d)

theorem pack_runsStages : RunsStages .pack packStages where
  nonzero := by decide
  meaning _ := rfl
  frame s := andThen_frame (require_holds (.refl s)).2.2 packBody_frame
  blind w d := (requireLevels_reissued w d).andThen (packBody_reissued w d)

/-- A command issued while none runs: its stages from the state of any accepted command, but for `PEND` and `DONE`. -/
theorem RunsStages.issueAndRun_eq {i : Instr} {f : State → Progress} (h : RunsStages i f) {s : State}
    (idle : s.status.busy = false) (w : Word) :
    issueAndRun i s = ((f (acceptCommand w s)).mapState (reissued (encode i) s.status.done)).outcome := by
  have accepted : acceptCommand (encode i) s = reissued (encode i) s.status.done (acceptCommand w s) := rfl
  rw [issueAndRun, cmdWrite_accepted idle h.nonzero, h.meaning, accepted, h.blind]

/-- A command ends with `DONE` exactly where its stages go on to the end. -/
theorem RunsStages.endsDone_eq {i : Instr} {f : State → Progress} (h : RunsStages i f) {s : State}
    (idle : s.status.busy = false) (w : Word) :
    endsDone i s = match f (acceptCommand w s) with | .going _ => true | .raised _ _ => false | .stuck _ => false := by
  have run : issueAndRun i { s with status := { s.status with done := false } }
      = ((f (acceptCommand w s)).mapState (reissued (encode i) false)).outcome := by
    have accepted : acceptCommand (encode i) { s with status := { s.status with done := false } }
        = reissued (encode i) false (acceptCommand w s) := rfl
    rw [issueAndRun, cmdWrite_accepted (s := { s with status := { s.status with done := false } }) idle h.nonzero,
      h.meaning, accepted, h.blind]
  rw [endsDone, run]
  cases f (acceptCommand w s) <;> rfl

/-! ## Comparing a sequence with one run -/

theorem Status.SameButDone.trans {t u v : Status} (h : t.SameButDone u) (k : u.SameButDone v) : t.SameButDone v := by
  obtain ⟨same, done⟩ := h
  obtain ⟨same', done'⟩ := k
  exact ⟨by rw [same', same], done' ∘ done⟩

/-- What answers a next state is the same conversion as what answers one only. -/
theorem SameConversion.of_next {same : Status → Status → Prop} {t : State} {o : Host.Outcome State Fault Refusal}
    (h : SameConversion same (.next t) o) : ∃ u, o = .next u ∧ t.plane = u.plane ∧ t.rowSize = u.rowSize
      ∧ t.outLen = u.outLen ∧ t.mem = u.mem ∧ same t.status u.status := by
  cases o with
  | next u => exact ⟨u, rfl, h⟩
  | fault _ => exact False.elim h
  | refused _ => exact False.elim h

/-- What stops is the same conversion as what stops alike only. -/
theorem SameConversion.of_fault {same : Status → Status → Prop} {q : Fault} {o : Host.Outcome State Fault Refusal}
    (h : SameConversion same (.fault q) o) : o = .fault q := by
  cases o with
  | next _ => exact False.elim h
  | fault r => exact congrArg Host.Outcome.fault (Eq.symm h)
  | refused _ => exact False.elim h

theorem SameConversion.trans {o o' o'' : Host.Outcome State Fault Refusal}
    (h : SameConversion Status.SameButDone o o') (k : SameConversion Status.SameButDone o' o'') :
    SameConversion Status.SameButDone o o'' := by
  cases o with
  | next t =>
    obtain ⟨u, rfl, plane, rowSize, outLen, mem, status⟩ := h.of_next
    obtain ⟨v, rfl, plane', rowSize', outLen', mem', status'⟩ := k.of_next
    exact ⟨plane.trans plane', rowSize.trans rowSize', outLen.trans outLen', mem.trans mem', status.trans status'⟩
  | fault q => exact h.of_fault ▸ k
  | refused q => exact False.elim h

theorem Progress.Holds.imp {P Q : State → Prop} {r : Progress} (hr : r.Holds P) (h : ∀ s, P s → Q s) : r.Holds Q := by
  cases r with
  | going s => exact h s hr
  | raised e s => exact h s hr
  | stuck q => trivial

theorem holds_of_forall {P : State → Prop} {r : Progress} (h : ∀ s, P s) : r.Holds P := by
  cases r with
  | going s => exact h s
  | raised e s => exact h s
  | stuck q => trivial

/-- The same stages run for another command end alike, where an earlier `DONE` still stands. -/
theorem sameConversion_reissued (w : Word) {d : Bool} {r : Progress}
    (kept : r.Holds fun t => t.status.done = true → d = true) :
    SameConversion Status.SameButDone r.outcome (r.mapState (reissued w d)).outcome := by
  cases r with
  | going t => exact ⟨rfl, rfl, rfl, rfl, rfl, fun _ => rfl⟩
  | raised e t => exact ⟨rfl, rfl, rfl, rfl, rfl, kept⟩
  | stuck q => rfl

/-! ## A sequence of commands -/

/-- `f` runs the stages of all the commands of the list, one after another. -/
inductive RunsAll : List Instr → (State → Progress) → Prop where
  | last {i : Instr} {f : State → Progress} : RunsStages i f → RunsAll [i] f
  | cons {i : Instr} {l : List Instr} {f g : State → Progress} :
      RunsStages i f → RunsAll l g → RunsAll (i :: l) (fun s => (f s).andThen g)

theorem RunsAll.blind {l : List Instr} {f : State → Progress} (h : RunsAll l f) (w : Word) (d : Bool) :
    BlindTo (reissued w d) f := by
  induction h with
  | last h => exact h.blind w d
  | cons h _ ih => exact (h.blind w d).andThen ih

/-- Stages that keep the frame keep `DONE`. -/
theorem RunsStages.keeps_done {i : Instr} {f : State → Progress} (h : RunsStages i f) (w : Word) (s : State) :
    (f (acceptCommand w s)).Holds fun t => t.status.done = true → s.status.done = true := by
  exact (h.frame (acceptCommand w s)).imp fun t frame done => by rw [frame.status] at done; exact done

/-- One command alone ends as its stages do. -/
theorem RunsStages.issueAndRun_related {i : Instr} {f : State → Progress} (h : RunsStages i f) (w : Word) {s : State}
    (idle : s.status.busy = false) :
    SameConversion Status.SameButDone (f (acceptCommand w s)).outcome (issueAndRun i s) := by
  rw [h.issueAndRun_eq idle w]
  exact sameConversion_reissued (encode i) (h.keeps_done w s)

theorem runStages_single (i : Instr) (s : State) : runStages [i] s = issueAndRun i s := by
  rw [runStages]
  cases issueAndRun i s with
  | next t => exact ite_self _
  | fault q => rfl
  | refused q => rfl

/-- A sequence ends with the first command that does not end with `DONE`. -/
theorem runStages_of_not_done {i : Instr} {l : List Instr} {s : State} (h : endsDone i s = false) :
    runStages (i :: l) s = issueAndRun i s := by
  rw [runStages, h]
  cases issueAndRun i s <;> rfl

/-- A sequence goes on from where a command has ended with `DONE`. -/
theorem runStages_of_done {i : Instr} {l : List Instr} {s t : State} (run : issueAndRun i s = .next t)
    (h : endsDone i s = true) : runStages (i :: l) s = runStages l t := by
  rw [runStages, run, h]
  rfl

/-- The commands issued one after another, each after the one before has ended with `DONE`, give what one run of all
their stages gives, but for `DONE` (R113). -/
theorem RunsAll.runStages_related {l : List Instr} {f : State → Progress} (h : RunsAll l f) (w : Word) :
    ∀ {s : State}, s.status.busy = false →
      SameConversion Status.SameButDone (f (acceptCommand w s)).outcome (runStages l s) := by
  induction h with
  | last h =>
    intro s idle
    rw [runStages_single]
    exact h.issueAndRun_related w idle
  | @cons i l f g h all ih =>
    intro s idle
    have alone := h.issueAndRun_related w idle
    have run := h.issueAndRun_eq idle w
    have done := h.endsDone_eq idle w
    have frame := h.frame (acceptCommand w s)
    show SameConversion _ ((f (acceptCommand w s)).andThen g).outcome _
    cases hf : f (acceptCommand w s) with
    | going t =>
      rw [hf] at run done frame
      have rest := ih (s := finish (reissued (encode i) s.status.done t)) rfl
      rw [acceptCommand_finish ((accepted_acceptCommand w s).of_frame frame), all.blind w true t] at rest
      rw [runStages_of_done run done]
      exact (sameConversion_reissued w (holds_of_forall fun _ _ => rfl)).trans rest
    | raised e t =>
      rw [hf] at alone done
      rw [runStages_of_not_done done]
      exact alone
    | stuck q =>
      rw [hf] at alone done
      rw [runStages_of_not_done done]
      exact alone

end Sys2Proof.Machine
end

section
/-! SUPPORT. The stage commands of a conversion as one run of their stages, beside CONVERT's (R112, R113). -/

namespace Sys2Proof.Machine

/-- The stages of the commands that follow REDUCE in the sequence of R113. -/
def stagesAfterReduce (c : Word) : State → Progress :=
  match decodeConfig c with
  | some { outBpp := .one, dither := .none, .. } =>
    fun s => (adjustStages s).andThen fun t => (quantizeStages t).andThen packStages
  | some { outBpp := .one, .. } =>
    fun s => (adjustStages s).andThen fun t => (ditherStages t).andThen fun u => (quantizeStages u).andThen packStages
  | _ => fun s => (quantizeStages s).andThen packStages

/-- The sequence of R113 runs REDUCE's stages and those of the commands that follow. -/
theorem stagesOf_runsAll (c : Word) :
    RunsAll (stagesOf c) (fun s => (reduceStages s).andThen (stagesAfterReduce c)) := by
  have levels : RunsAll [.quantize, .pack] _ := .cons quantize_runsStages (.last pack_runsStages)
  have dithered := RunsAll.cons dither_runsStages levels
  unfold stagesOf stagesAfterReduce
  generalize decodeConfig c = fields
  match fields with
  | some ⟨.one, _, _, .none, _, _⟩ => exact .cons reduce_runsStages (.cons adjust_runsStages levels)
  | some ⟨.one, _, _, .floyd, _, _⟩ => exact .cons reduce_runsStages (.cons adjust_runsStages dithered)
  | some ⟨.one, _, _, .ordered, _, _⟩ => exact .cons reduce_runsStages (.cons adjust_runsStages dithered)
  | some ⟨.four, _, _, _, _, _⟩ => exact .cons reduce_runsStages levels
  | none => exact .cons reduce_runsStages levels

/-! ## The stage requirements are met in the sequence (R76) -/

theorem adjustStages_met {s : State} (luma : s.status.pk = .luma8) (one : s.latch.outBpp = .one) :
    adjustStages s = .going (adjustBody s) := by
  rw [adjustStages, requireLumaForOneBpp_met luma one, thenDo_going]

theorem ditherStages_met {s : State} (luma : s.status.pk = .luma8) (one : s.latch.outBpp = .one) :
    ditherStages s = .going (ditherBody s) := by
  rw [ditherStages, requireLumaForOneBpp_met luma one, thenDo_going]

/-- QUANTIZE leaves the levels that PACK asks for. -/
theorem quantizeStages_packStages_met {s : State} (luma : s.status.pk = .luma8) :
    (quantizeStages s).andThen packStages = packBody (quantizeBody s) := by
  have levels : (quantizeBody s).status.pk = .level1 ∨ (quantizeBody s).status.pk = .level4 := by
    rw [quantizeBody_status]
    cases s.latch.outBpp
    · exact .inl rfl
    · exact .inr rfl
  rw [quantizeStages, requireLuma_met luma, thenDo_going, andThen_going, packStages, requireLevels_met levels,
    andThen_going]

/-- From a LUMA8 plane of the latched depth and method the commands after REDUCE do what CONVERT does (R112, R113). -/
theorem stagesAfterReduce_luma {c : Word} {f : ConfigFields} {s : State} (hf : decodeConfig c = some f)
    (depth : s.latch.outBpp = f.outBpp) (method : s.latch.dither = f.dither) (luma : s.status.pk = .luma8) :
    stagesAfterReduce c s = packBody (quantizeBody (oneBppStages s)) := by
  obtain ⟨outBpp, _, _, dither, _, _⟩ := f
  dsimp only at depth method
  rw [stagesAfterReduce, hf]
  cases outBpp with
  | four =>
    rw [oneBppStages_of_four depth]
    exact quantizeStages_packStages_met luma
  | one =>
    have adjust := adjustStages_met luma depth
    have dithered := ditherStages_met (s := adjustBody s) luma depth
    rw [oneBppStages_of_one depth]
    cases dither with
    | none =>
      have nothing : ditherBody (adjustBody s) = adjustBody s := by
        rw [ditherBody, adjustBody_latch, method, ditherNoneBody]
      dsimp only
      rw [adjust, andThen_going, nothing]
      exact quantizeStages_packStages_met luma
    | floyd | ordered =>
      dsimp only
      rw [adjust, andThen_going, dithered, andThen_going]
      exact quantizeStages_packStages_met (by rw [ditherBody_status]; exact luma)

/-! ## CONVERT's stages and the sequence's -/

/-- The method of a latch that passes the checks is the configuration's. -/
theorem dither_of_latchOf {cap : Nat} {r : ConvRegs} {L : Latch} {f : ConfigFields} (hL : latchOf cap r = .ok L)
    (hf : decodeConfig r.config = some f) : L.dither = f.dither := by
  obtain ⟨f', hf', -, -, -, -, -, rfl⟩ := latchOf_ok hL
  obtain rfl : f = f' := Option.some.inj (hf.symm.trans hf')
  rfl

/-- Where the checks pass, the sequence's stages are REDUCE's loops and, if they end, the stages of CONVERT that come
after them. -/
theorem sequenceStages_latched {s : State} {L : Latch} (hL : ChecksPass s L) :
    (reduceStages s).andThen (stagesAfterReduce s.snap.config)
      = (((reduceBody (writeLatch L s)).thenDo oneBppStages).thenDo quantizeBody).andThen packBody := by
  obtain ⟨f, hf, -⟩ := latchOf_ok hL
  rw [reduceStages, checkAndLatch_ok hL, andThen_going]
  rcases reduceBody_cases (writeLatch L s) with ⟨h, -⟩ | ⟨h, -, -⟩ | ⟨h, -, -⟩ <;> rw [h]
  · rfl
  · rfl
  · exact stagesAfterReduce_luma hf (outBpp_of_latchOf hL hf) (dither_of_latchOf hL hf) rfl

/-- Where a legal conversion's destination is clear, CONVERT's stages are the sequence's (R113). -/
theorem convertStages_eq_sequenceStages {s : State} (clear : ∀ L, ChecksPass s L → DestClear s.platform L) :
    convertStages s = (reduceStages s).andThen (stagesAfterReduce s.snap.config) := by
  cases h : latchOf s.platform.planeCapacity s.snap with
  | error e =>
    simp only [convertStages, startConversion, reduceStages, checkAndLatch_error h, andThen_raised, thenDo_raised]
  | ok L => rw [sequenceStages_latched h, convertStages, startConversion_clear h (clear L h), andThen_going]

theorem packBody_stuck {s : State} (h : ¬ DestClear s.platform s.latch) :
    packBody s = .stuck .regionOverlapsWindow := by
  rw [packBody, packWith, writePacked, requireDestClear_stuck h, andThen_stuck]

/-- Where a legal conversion's destination overlaps the window, the sequence's stages stop or end with `BUS_READ` before
PACK (R46). -/
theorem sequenceStages_overlapping {s : State} {L : Latch} (hL : ChecksPass s L) (h : ¬ DestClear s.platform L) :
    (reduceStages s).andThen (stagesAfterReduce s.snap.config) = .stuck .regionOverlapsWindow
      ∨ ∃ p, (reduceStages s).andThen (stagesAfterReduce s.snap.config)
        = .raised .busRead (withReducedPlane p (writeLatch L s)) := by
  rw [sequenceStages_latched hL]
  rcases reduceBody_cases (writeLatch L s) with ⟨stuck, -⟩ | ⟨raised, -, -⟩ | ⟨going, -, -⟩
  · exact .inl (by rw [stuck]; rfl)
  · exact .inr ⟨_, by rw [raised]; rfl⟩
  · have level : ¬ DestClear (levelState (writeLatch L s)).platform (levelState (writeLatch L s)).latch := by
      rw [levelState_platform, levelState_latch]
      exact h
    exact .inl (by rw [going]; exact packBody_stuck level)

end Sys2Proof.Machine
end

section
/-! SUPPORT. The obligation about CONVERT and the sequence of stage commands. -/

namespace Sys2Proof.Machine

/-- Settles O38: an issued CONVERT runs the stages of the sequence in one, or stops where its destination overlaps the
window. -/
theorem convertEqualsStageSequence : Obligations.ConvertEqualsStageSequence := by
  intro s idle
  have convert : issueAndRun .convert s = (convertStages (acceptCommand (encode .convert) s)).outcome := by
    rw [issueAndRun, cmdWrite_accepted idle (by decide)]
    rfl
  have sequence := (stagesOf_runsAll s.regs.config).runStages_related (encode .convert) idle
  refine ⟨fun clear => ?_, fun L hL overlaps => ⟨?_, ?_⟩⟩
  · rw [convert, convertStages_eq_sequenceStages (s := acceptCommand (encode .convert) s) clear]
    exact sequence
  · rw [convert, ← execConvert_eq]
    exact execConvert_stops (s := acceptCommand (encode .convert) s) hL (.inr overlaps)
  · rcases sequenceStages_overlapping (s := acceptCommand (encode .convert) s) hL overlaps with stuck | ⟨p, raised⟩
    · rw [acceptCommand_snap] at stuck
      rw [stuck] at sequence
      exact .inl sequence.of_fault
    · rw [acceptCommand_snap] at raised
      rw [raised] at sequence
      obtain ⟨u, answered, -, -, -, mem, status, -⟩ := sequence.of_next
      exact .inr ⟨u, answered, by rw [status]; rfl, by rw [status]; rfl, mem.symm⟩

end Sys2Proof.Machine
end

section
/-! SUPPORT. The pre-check errors: the checks raise them in the state the command found, and what comes after the checks
raises only the errors that release the plane (R76, R81, R115, R116). -/

namespace Sys2Proof.Machine

/-! ## The two kinds of errors (R118) -/

/-- The pre-check errors are the ones with the codes 1 to 4. -/
theorem CmdError.code_le_four {e : CmdError} : e.code.toNat ≤ 4 ↔ e.releasesPlane = false := by cases e <;> decide

/-- A pre-check error changes `ERR`, `ERRCODE` and `BUSY` only (R116). -/
theorem raiseError_precheck {e : CmdError} (h : e.releasesPlane = false) (s : State) :
    raiseError e s = { s with status := s.status.failed e.code, touched := [] } := by
  simp [raiseError, Status.failed, h]

/-! ## Where a pre-check error has been raised -/

/-- A pre-check error, if one has been raised, has been raised in the state `s`. -/
def Progress.PrecheckIn (s : State) : Progress → Prop
  | .going _ => True
  | .raised e t => e.releasesPlane = false → t = s
  | .stuck _ => True

theorem precheckIn_of_holds {s : State} {r : Progress} (h : r.Holds (· = s)) : r.PrecheckIn s := by
  cases r with
  | going t => trivial
  | raised e t => exact fun _ => h
  | stuck q => trivial

/-- After the checks, stages that raise execution-phase errors only. -/
theorem andThen_precheckIn {s : State} {r : Progress} {f : State → Progress} (hr : r.PrecheckIn s)
    (hf : ∀ t, (f t).RaisesOnly (·.releasesPlane = true)) : (r.andThen f).PrecheckIn s := by
  cases r with
  | going t =>
    have raises := hf t
    rw [andThen_going]
    cases hft : f t with
    | going u => trivial
    | raised e u =>
      rw [hft] at raises
      exact fun precheck => absurd (precheck.symm.trans raises) Bool.false_ne_true
    | stuck q => trivial
  | raised e t => exact hr
  | stuck q => trivial

theorem thenDo_precheckIn {s : State} {r : Progress} {f : State → State} (hr : r.PrecheckIn s) :
    (r.thenDo f).PrecheckIn s := andThen_precheckIn hr (fun _ => trivial)

/-! ## The errors after the checks -/

theorem checkAndLatch_precheckIn (s : State) : (checkAndLatch s).PrecheckIn s := by
  cases h : latchOf s.platform.planeCapacity s.snap with
  | ok L => rw [checkAndLatch_ok h]; trivial
  | error e => rw [checkAndLatch_error h]; exact fun _ => rfl

theorem requireDestClear_releases (s : State) : (requireDestClear s).RaisesOnly (·.releasesPlane = true) := by
  rcases requireDestClear_cases s with ⟨h, -⟩ | ⟨h, -⟩ <;> rw [h] <;> trivial

/-- `ReduceBody()` raises `BUS_READ` only (R85). -/
theorem reduceBody_releases (s : State) : (reduceBody s).RaisesOnly (·.releasesPlane = true) := by
  rcases reduceBody_cases s with ⟨h, -⟩ | ⟨h, -, -⟩ | ⟨h, -, -⟩ <;> rw [h]
  · trivial
  · exact rfl
  · trivial

/-- `PackBody()` raises `BUS_WRITE` only (R106). -/
theorem packBody_releases (s : State) : (packBody s).RaisesOnly (·.releasesPlane = true) := by
  rw [packBody_eq, packWith]
  rcases writePacked_cases (packedBytes (layoutOf s.latch.outBpp s.latch.scan) s.latch s.plane) s with
    ⟨h, -⟩ | ⟨h, -, -⟩ | ⟨h, -, -⟩ <;> rw [h]
  · trivial
  · exact rfl
  · trivial

theorem reduceStages_precheckIn (s : State) : (reduceStages s).PrecheckIn s :=
  andThen_precheckIn (checkAndLatch_precheckIn s) reduceBody_releases

theorem convertStages_precheckIn (s : State) : (convertStages s).PrecheckIn s := by
  have started := andThen_precheckIn (checkAndLatch_precheckIn s) requireDestClear_releases
  have reduced := andThen_precheckIn started reduceBody_releases
  exact andThen_precheckIn (thenDo_precheckIn (thenDo_precheckIn reduced)) packBody_releases

/-- Every row but NOP runs stages that stay inside their frame and raise a pre-check error in the state they start
from only. -/
theorem exec_stages_precheckIn {i : Instr} (hi : i ≠ .nop) :
    ∀ s, ∃ r : Progress, r.Holds (StageFrame s) ∧ r.PrecheckIn s ∧ exec i s = r.outcome := by
  refine exec_commands (C := fun f => ∀ s, ∃ r : Progress, r.Holds (StageFrame s) ∧ r.PrecheckIn s ∧ f s = r.outcome)
    ?convert ?reduce ?adjust ?dither ?quantize ?pack ?illegal hi <;> intros
  case convert s => exact ⟨_, convertStages_frame s, convertStages_precheckIn s, execConvert_eq s⟩
  case reduce s => exact ⟨_, reduceStages_frame s, reduceStages_precheckIn s, execReduce_eq s⟩
  case adjust s =>
    have checked := precheckIn_of_holds (require_holds (P := (· = s)) rfl).1
    exact ⟨_, adjust_runsStages.frame s, thenDo_precheckIn checked, adjust_runsStages.meaning s⟩
  case dither s =>
    have checked := precheckIn_of_holds (require_holds (P := (· = s)) rfl).1
    exact ⟨_, dither_runsStages.frame s, thenDo_precheckIn checked, dither_runsStages.meaning s⟩
  case quantize s =>
    have checked := precheckIn_of_holds (require_holds (P := (· = s)) rfl).2.1
    exact ⟨_, quantize_runsStages.frame s, thenDo_precheckIn checked, quantize_runsStages.meaning s⟩
  case pack s =>
    have checked := precheckIn_of_holds (require_holds (P := (· = s)) rfl).2.2
    exact ⟨_, pack_runsStages.frame s, andThen_precheckIn checked packBody_releases, pack_runsStages.meaning s⟩
  case illegal w s => exact ⟨.raised .illegalCmd s, .refl s, fun _ => rfl, rfl⟩

/-- NOP, a write of the word 0 to `CMD`, leaves `ERR` alone (R72, R73). -/
theorem cmdWrite_zero_err (s : State) : (cmdWrite 0x00000000#32 s).status.err = s.status.err := by
  cases busy : s.status.busy with
  | true => rw [cmdWrite_busy _ busy]
  | false => rw [cmdWrite_zero busy]

end Sys2Proof.Machine
end

section
/-! SUPPORT. The obligation about the state after a pre-check error. -/

namespace Sys2Proof.Machine

/-- Settles O42: NOP and `finish` show no error end, and an error with a code up to 4 has been raised in the state the
command found. -/
theorem precheckErrorsChangeOnlyStatus : Obligations.PrecheckErrorsChangeOnlyStatus := by
  intro i s t h errorEnd low
  by_cases hi : i = .nop
  · subst hi
    obtain rfl : cmdWrite 0x00000000#32 s = t := Host.Outcome.next.inj h
    rw [cmdWrite_zero_err] at errorEnd
    rcases errorEnd with ⟨clear, set⟩ | ⟨command, -⟩
    · exact absurd (clear.symm.trans set) Bool.false_ne_true
    · exact absurd rfl command
  · obtain ⟨r, frame, precheckIn, hr⟩ := exec_stages_precheckIn hi s
    rcases outcome_next (hr ▸ h) with ⟨u, rfl, rfl⟩ | ⟨e, u, rfl, rfl⟩
    · rw [finish_status, StageFrame.status frame] at errorEnd
      rcases errorEnd with ⟨clear, set⟩ | ⟨-, -, undone⟩
      · exact absurd (clear.symm.trans set) Bool.false_ne_true
      · exact absurd undone.symm Bool.false_ne_true
    · have precheck : e.releasesPlane = false := CmdError.code_le_four.1 low
      obtain rfl : u = s := precheckIn precheck
      exact raiseError_precheck precheck u

end Sys2Proof.Machine
end

section
/-! SUPPORT. The host's accesses to come, the end of the running command, and the run that uses both up. -/

namespace Sys2Proof.Machine

/-! ## The reset input -/

/-- A step that takes the reset input. -/
theorem step_reset {s : State} {rest : List HostEvent} (h : s.inbox = .reset :: rest) :
    step s = .next (blockReset (withInbox rest s)) := step_event h

/-! ## The host's accesses to come -/

theorem cmdWrite_inbox (w : Word) (s : State) : (cmdWrite w s).inbox = s.inbox := by
  rcases cmdWrite_cases w s with ⟨-, h⟩ | ⟨-, -, h⟩ | ⟨-, -, h⟩ <;> rw [h]
  rfl

theorem commandEnd_inbox {s t : State} (h : CommandEnd s t) : t.inbox = s.inbox := by
  cases h with
  | nop => exact cmdWrite_inbox _ s
  | finished hu => exact hu.inbox
  | failed e hu => exact hu.inbox

theorem accessEffect_inbox {s t : State} (h : AccessEffect s t) : t.inbox = s.inbox := by
  cases h with
  | command w q => exact cmdWrite_inbox w s
  | clearFlags w q => rfl
  | store r v q n => rfl
  | memWrite a v => rfl

theorem engineTurn_inbox {s t : State} (h : engineTurn s = .next t) : t.inbox = s.inbox := by
  cases busy : s.status.busy with
  | true => exact commandEnd_inbox (exec_commandEnd _ (engineTurn_busy busy ▸ h))
  | false =>
    obtain rfl : s = t := Host.Outcome.next.inj (engineTurn_idle busy ▸ h)
    rfl

theorem eventTurn_inbox {e : HostEvent} {s t : State} (h : eventTurn e s = .next t) : t.inbox = s.inbox := by
  by_cases he : e = .engine
  · subst he; exact engineTurn_inbox h
  · by_cases hr : e = .reset
    · subst hr; exact (congrArg State.inbox (Host.Outcome.next.inj h)).symm
    · exact accessEffect_inbox (eventTurn_effect he hr h)

/-- A step that takes a host event leaves the events after it. -/
theorem step_event_inbox {s t : State} {e : HostEvent} {rest : List HostEvent} (hi : s.inbox = e :: rest)
    (h : step s = .next t) : t.inbox = rest := eventTurn_inbox (step_event hi ▸ h)

/-! ## The end of the running command -/

/-- Only the word 0 decodes to NOP, because every word is the encoding of its instruction (R67, R73). -/
theorem decode_ne_nop {w : Word} (hw : w ≠ 0x00000000#32) : decode w ≠ .nop := by
  intro nop
  obtain ⟨-, -, encoded⟩ := encodeDecodeAgree w
  rw [nop] at encoded
  exact hw encoded.symm

/-- After the engine's turn no command runs: a pending command is not NOP, and every other one clears `BUSY` (R74). -/
theorem engineTurn_not_busy {s t : State} (pending : PendingInv s) (h : engineTurn s = .next t) :
    t.status.busy = false := by
  cases busy : s.status.busy with
  | true =>
    obtain ⟨ended, -, -⟩ :=
      commandsEndDoneOrError _ s t (decode_ne_nop (pending.1 busy)) (engineTurn_busy busy ▸ h)
    exact ended
  | false =>
    obtain rfl : s = t := Host.Outcome.next.inj (engineTurn_idle busy ▸ h)
    exact busy

/-! ## Runs -/

/-- A run of one step and `k` more that ends in a next state is a step to some state and the `k` others from there. -/
theorem run_succ_next {M : Host.Core} {k : Nat} {s t : M.State} (h : M.run (k + 1) s = .next t) :
    ∃ u, M.step s = .next u ∧ M.run k u = .next t := by
  rw [Host.Core.run] at h
  cases hs : M.step s with
  | next u => rw [hs] at h; exact ⟨u, rfl, h⟩
  | fault r => rw [hs] at h; exact nomatch h
  | refused r => rw [hs] at h; exact nomatch h

/-- A run of one step for each access to come and one more ends with no command running: each step takes an access and
keeps the invariant, and the last one is the engine's turn (R131). -/
theorem run_inbox_not_busy (l : List HostEvent) : ∀ {s t : State}, s.inbox = l → PendingInv s →
    Host.Core.run Sys2Proof.core (l.length + 1) s = .next t → t.status.busy = false := by
  induction l with
  | nil =>
    intro s t hi pending h
    obtain ⟨u, hu, hrun⟩ := run_succ_next h
    obtain rfl : u = t := Host.Outcome.next.inj hrun
    exact engineTurn_not_busy pending (step_engine hi ▸ hu)
  | cons e rest ih =>
    intro s t hi pending h
    obtain ⟨u, hu, hrun⟩ := run_succ_next h
    obtain ⟨-, keeps⟩ := stepKeepsParametersAndPending s u hu
    exact ih (step_event_inbox hi hu) (keeps pending) hrun

end Sys2Proof.Machine
end

section
/-! SUPPORT. The obligations about the reset input and the end of the last accepted command. -/

namespace Sys2Proof.Machine

/-- Settles O60, for the accesses that the state has to come. -/
theorem everyAcceptedCommandEnds : Obligations.EveryAcceptedCommandEnds := fun s _ pending h =>
  run_inbox_not_busy s.inbox rfl pending h

/-- Settles O54: the step gives the block the registers of `State.reset`, and nothing else that the statement names. -/
theorem resetInputRestoresRegisters : Obligations.ResetInputRestoresRegisters := by
  intro s t rest hi h
  obtain rfl : blockReset (withInbox rest s) = t := Host.Outcome.next.inj (step_reset hi ▸ h)
  obtain ⟨-, inten, rowSize, outLen, status, kind, quiet, -⟩ := resetStateValues
  exact ⟨rfl, inten, status, kind, rowSize, outLen, quiet, rfl, rfl, rfl⟩

end Sys2Proof.Machine
end
